-- ==== Sys2Proof/Word.lean ====
section
/-! DEFINITION. The data word of the block (spec/00_scope.md R8, R10, R11). -/

namespace Sys2Proof

/-- The 32-bit data word of every register of the window; `+` on it is addition modulo 2^32 (R8, R11). -/
abbrev Word := BitVec 32

/-- One byte of a message (R68). -/
abbrev Byte := BitVec 8

end Sys2Proof
end

