-- ==== Sys2Proof/Config.lean ====
section
/-! DEFINITION. What one implementation of the block fixes, and the model's one free value. -/

namespace Sys2Proof

/-- The two parameters of the block, taken as an argument (spec/00_scope.md R6, R7, R9). -/
structure Config where
  /-- `BASE`, the bus address of the register window (R7). -/
  base : Nat
  /-- `NUM_WORKERS`, the number of lanes (R6). -/
  numWorkers : Nat
deriving DecidableEq, Repr

namespace Config

/-- The size in bytes of the register window (spec/20_memory.md R60). -/
def windowSize : Nat := 0x400

/-- The parameters of the machine that `State.reset` stands for; log 3.
DESIGN CHOICE: the spec leaves both parameters open. Unsafe for a claim about `State.reset` alone. -/
def ofReset : Config := { base := 0, numWorkers := 32 }

/-- Which of the agents that have an enabled step moves next, where the interleaving is not fixed in advance
(spec/00_scope.md R13, spec/93_implementation_defined.md U2); applied to the number of choices made so far; log 2.
A free value: nothing constrains it. Safe for what a step may do, unsafe for claims that free steps make progress. -/
opaque nextTurn : Nat → Nat

end Config

end Sys2Proof
end

