-- ==== Sys2Proof/Syntax.lean ====
section
/-! DEFINITION. The syntax: the four commands (spec/30_encoding.md R81), the names of the register window
(spec/20_memory.md R71), the host's statements (spec/30_encoding.md R86, R87) and the turns of an interleaving. -/

namespace Sys2Proof

/-- The commands of the block, one constructor per row of spec/opcode_table.json. They have no operand field (R83). -/
inductive Instr where
  /-- PREPARE, word 0x00000001 (spec/42_sha256d.md R160). -/
  | prepare
  /-- HASH, word 0x00000002 (spec/42_sha256d.md R161). -/
  | hash
  /-- TEST, word 0x00000003 (spec/41_header_predicate.md R132). -/
  | test
  /-- SEARCH, word 0x00000004 (spec/43_search.md R174). -/
  | search
deriving DecidableEq, Repr

/-- The registers of the window (spec/20_memory.md R71). A lane counter is named for each of the 32 places the map
has; the places of lanes that do not exist are reserved (R66). -/
inductive RegName where
  | cmd
  | status
  | startNonce
  | concurrency
  | resultNonce
  | numWorkers
  | totalHashesLo
  | totalHashesHi
  | laneActive
  | laneExhausted
  | hdr (i : Fin 20)
  | digest (i : Fin 8)
  | job (i : Fin 13)
  | laneHcLo (i : Fin 32)
  | laneHcHi (i : Fin 32)
deriving DecidableEq, Repr

/-- A statement of the host (spec/30_encoding.md R86, R87): a bus read of `n` bytes, a bus write of `n` bytes, or the
poll loop `WAIT`. The other notations of R86 and R87 expand to these (Machine/HostScript.lean). -/
inductive HostStmt where
  /-- `MemRead(addr, n)`. -/
  | read (addr n : Nat)
  /-- `MemWrite(addr, n, v)`. -/
  | write (addr n : Nat) (v : Word)
  /-- `WAIT`: read `STATUS` until it is not BUSY (R87). -/
  | wait
deriving DecidableEq, Repr

/-- One turn of an interleaving (spec/00_scope.md R13): the agent whose atomic step comes next, or the reset input
(spec/70_reset_and_hazards.md R240). -/
inductive Turn where
  | host
  | controller
  | lane (i : Nat)
  | reset
deriving DecidableEq, Repr

end Sys2Proof
end

