-- ==== Sys2Proof/WellFormed.lean ====
section
/-! DEFINITION. Well-formedness of what the model takes as an argument. -/

namespace Sys2Proof

/-- Every command is well formed: it has no immediate and no register field to be out of range
(spec/30_encoding.md R83). -/
def Instr.wellFormed : Instr → Bool
  | .prepare => true
  | .hash => true
  | .test => true
  | .search => true

/-- `1 <= NUM_WORKERS <= 32` and `BASE` a multiple of 0x400 (spec/00_scope.md R6, R7). -/
def Config.wellFormed (c : Config) : Bool :=
  decide (1 ≤ c.numWorkers) && decide (c.numWorkers ≤ 32) && decide (c.base % Config.windowSize = 0)

/-- A host statement is well formed when the access is a legal one of the window at `base`
(spec/20_memory.md R61). -/
def HostStmt.wellFormed (base : Nat) : HostStmt → Bool
  | .read addr n => legal addr n
  | .write addr n _ => legal addr n
  | .wait => true
where
  legal (addr n : Nat) : Bool :=
    decide (base ≤ addr) && decide (addr - base < Config.windowSize) && decide (n = 4) &&
      decide ((addr - base) % 4 = 0)

end Sys2Proof
end

