-- ==== Sys2Proof/Decode.lean ====
section
/-! DEFINITION. The command decoder and encoder (spec/30_encoding.md R80 to R82), and the offsets of the register
window (spec/20_memory.md R71). -/

namespace Sys2Proof

/-- The field `OPC`, bits 3:0 of a command word (R80). -/
def opcField (w : Word) : BitVec 4 := w.extractLsb' 0 4

/-- The field `MBZ`, bits 31:4 of a command word (R80). -/
def mbzField (w : Word) : BitVec 28 := w.extractLsb' 4 28

/-- Why a word is no command (R82). -/
inductive DecodeError where
  /-- `MBZ != 0`, whatever the `OPC`. -/
  | mbzNotZero
  /-- `OPC = 0` or `OPC` in 5 to 15. -/
  | reservedOpcode
deriving DecidableEq, Repr

/-- The command a word of `CMD` stands for, or why there is none (R81, R82). -/
def decode (w : Word) : Except DecodeError Instr :=
  if mbzField w ≠ 0 then .error .mbzNotZero
  else if opcField w = 1 then .ok .prepare
  else if opcField w = 2 then .ok .hash
  else if opcField w = 3 then .ok .test
  else if opcField w = 4 then .ok .search
  else .error .reservedOpcode

/-- The opcode of a command (R81). -/
def opcode : Instr → BitVec 4
  | .prepare => 1
  | .hash => 2
  | .test => 3
  | .search => 4

/-- The command word: `MBZ = 0` above the opcode (R80, R81). -/
def encode (i : Instr) : Word := (0 : BitVec 28) ++ opcode i

/-- The command whose bits are `w`, given on `nbits` bits; a command is one word of 32 bits (R80), so an instruction
with a bit set above the first word is none. -/
def decodeTableWord (nbits w : Nat) : Option Instr :=
  if w % 2 ^ nbits < 2 ^ 32 then
    match decode (BitVec.ofNat 32 (w % 2 ^ nbits)) with
    | .ok i => some i
    | .error _ => none
  else none

/-- The offset of a register in the window (R71). -/
def offsetOf : RegName → Nat
  | .cmd => 0x000
  | .status => 0x004
  | .startNonce => 0x008
  | .concurrency => 0x00C
  | .resultNonce => 0x010
  | .numWorkers => 0x014
  | .totalHashesLo => 0x018
  | .totalHashesHi => 0x01C
  | .laneActive => 0x020
  | .laneExhausted => 0x024
  | .hdr i => 0x040 + 4 * i.val
  | .digest i => 0x0A0 + 4 * i.val
  | .job i => 0x0C0 + 4 * i.val
  | .laneHcLo i => 0x100 + 8 * i.val
  | .laneHcHi i => 0x104 + 8 * i.val

/-- The registers with an offset of their own, below 0x028 (R71). -/
def controlRegAt (off : Nat) : Option RegName :=
  if off = 0x000 then some .cmd
  else if off = 0x004 then some .status
  else if off = 0x008 then some .startNonce
  else if off = 0x00C then some .concurrency
  else if off = 0x010 then some .resultNonce
  else if off = 0x014 then some .numWorkers
  else if off = 0x018 then some .totalHashesLo
  else if off = 0x01C then some .totalHashesHi
  else if off = 0x020 then some .laneActive
  else if off = 0x024 then some .laneExhausted
  else none

/-- Index of `off` in an array of `n` registers that starts at `start` with one register every `stride` bytes. -/
def arrayIndex (start stride n off : Nat) : Option (Fin n) :=
  if h : start ≤ off ∧ (off - start) % stride = 0 ∧ (off - start) / stride < n then
    some ⟨(off - start) / stride, h.2.2⟩
  else none

/-- The register at an offset of the window; none where the offset is reserved for every lane count (R71). -/
def regAt (off : Nat) : Option RegName :=
  (controlRegAt off).orElse fun _ =>
  ((arrayIndex 0x040 4 20 off).map .hdr).orElse fun _ =>
  ((arrayIndex 0x0A0 4 8 off).map .digest).orElse fun _ =>
  ((arrayIndex 0x0C0 4 13 off).map .job).orElse fun _ =>
  ((arrayIndex 0x100 8 32 off).map .laneHcLo).orElse fun _ =>
  (arrayIndex 0x104 8 32 off).map .laneHcHi

end Sys2Proof
end

