-- ==== Sys2Proof/Machine/State.lean ====
section
/-! DEFINITION. The state of the block (spec/10_state.md) as plain data, the stops of a step, and the state after
reset (spec/10_state.md R48). -/

namespace Sys2Proof.Machine

/-- `STATUS.STATE` (spec/10_state.md R23); the values 5 to 7 are never produced and have no name here (log 17). -/
inductive EngineState where
  | idle
  | busy
  | found
  | exhausted
  | error
deriving DecidableEq, Repr

/-- `STATUS.ERR` (spec/10_state.md R27); the values 4 to 15 are never produced and have no name here (log 17). -/
inductive ErrCode where
  | none
  | illegalCmd
  | badConcurrency
  | predRange
deriving DecidableEq, Repr

/-- The fields of `STATUS` that hold state (spec/10_state.md R22 to R28). The reserved bits are hardwired to 0 and
are put in where the register is read (Machine/Flags.lean). `op` is the last accepted legal command, none for the
value 0 (R28). -/
structure Status where
  state : EngineState
  resultValid : Bool
  predHit : Bool
  rej : Bool
  err : ErrCode
  op : Option Instr
deriving DecidableEq, Repr

/-- `lane[i].phase` (spec/10_state.md R41). -/
inductive Phase where
  | idle
  | run
  | pend
  | found
  | exh
deriving DecidableEq, Repr

/-- The eight working variables of the compression (spec/42_sha256d.md R149). -/
structure WorkVars where
  a : Word
  b : Word
  c : Word
  d : Word
  e : Word
  f : Word
  g : Word
  h : Word
deriving DecidableEq, Repr

/-- A lane's private scratch (spec/10_state.md R43). No rule reads it before a trial has overwritten it. -/
structure Scratch where
  schedule : Vector Word 64
  vars : WorkVars
  first : Vector Word 8
  final : Vector Word 8
deriving DecidableEq, Repr

/-- One lane: its phase (R41), its iteration offset `k[i]` (R42), its hash counter `HC[i]` (R39) and its scratch
(R43), all of spec/10_state.md. -/
structure Lane where
  phase : Phase
  k : BitVec 33
  hashCount : BitVec 64
  scratch : Scratch
deriving DecidableEq, Repr

/-- The machine: every piece of state of spec/10_state.md R20, and the model's own fields for what is outside the
block (`script`, `turns`, `choices`, `lastRead`; logs 1, 2, 10). -/
structure State where
  /-- `STATUS` (R22 to R28). -/
  status : Status
  /-- `START_NONCE` (R29). -/
  startNonce : Word
  /-- `CONCURRENCY` (R30). -/
  concurrency : Word
  /-- `RESULT_NONCE` (R31). -/
  resultNonce : Word
  /-- `HDR[0..19]` (R36). -/
  hdr : Vector Word 20
  /-- `DIGEST[0..7]` (R37). -/
  digest : Vector Word 8
  /-- `JOB[0..12]` (R38). -/
  job : Vector Word 13
  /-- `ctrl.pending` (R40), none for NONE. -/
  pending : Option Instr
  /-- `ctrl.searching` (R40). -/
  searching : Bool
  /-- The lanes 0 to `NUM_WORKERS - 1`; the parameter `NUM_WORKERS` is the length of the list (R32; log 18). -/
  lanes : List Lane
  /-- The parameter `BASE` (spec/00_scope.md R7). -/
  base : Nat
  /-- The model's own: the host statements still to be issued (log 1). -/
  script : List HostStmt
  /-- The model's own: the turns of the interleaving that are fixed in advance (log 1). -/
  turns : List Turn
  /-- The model's own: how many turns the free value has chosen (log 2). -/
  choices : Nat
  /-- The model's own: the value the last host read returned (log 10). -/
  lastRead : Option Word
deriving DecidableEq, Repr

/-- Why a step ends in a fault. -/
inductive Fault where
  /-- A host access in the window that is not 4 bytes wide or not aligned on 4: a bus error, which the spec tells a
  model to treat as a host fault (spec/20_memory.md R62). Raised by a host turn; no command raises it. Safe (log 6). -/
  | busError
  /-- A host access at an address outside the window, where the block has no register (spec/20_memory.md R60, R61).
  Raised by a host turn; no command raises it. Safe (log 7). -/
  | outsideWindow
deriving DecidableEq, Repr

/-- Why a step is refused. -/
inductive Refusal where
  /-- An instruction that `exec` gives no meaning; no arm of `exec` answers so. Safe. -/
  | notModelled (mnemonic : String)
deriving DecidableEq, Repr

/-- `STATUS` after reset, 0x00000000 (spec/10_state.md R48). -/
def Status.reset : Status :=
  { state := .idle, resultValid := false, predHit := false, rej := false, err := .none, op := none }

/-- The scratch at reset: zero in every word; log 4. DESIGN CHOICE: the spec gives no value (spec/10_state.md R48);
unsafe. -/
def Scratch.reset : Scratch :=
  { schedule := Vector.replicate 64 0
    vars := { a := 0, b := 0, c := 0, d := 0, e := 0, f := 0, g := 0, h := 0 }
    first := Vector.replicate 8 0
    final := Vector.replicate 8 0 }

/-- A lane after reset: IDLE, `k` and `HC` 0 (spec/10_state.md R48). -/
def Lane.reset : Lane := { phase := .idle, k := 0, hashCount := 0, scratch := Scratch.reset }

/-- The state after reset of the block with parameters `c` (spec/10_state.md R48), with a silent host and no turn
fixed in advance. -/
def State.resetOf (c : Config) : State :=
  { status := Status.reset
    startNonce := 0
    concurrency := 0
    resultNonce := 0
    hdr := Vector.replicate 20 0
    digest := Vector.replicate 8 0
    job := Vector.replicate 13 0
    pending := none
    searching := false
    lanes := List.replicate c.numWorkers Lane.reset
    base := c.base
    script := []
    turns := []
    choices := 0
    lastRead := none }

/-- The machine right after reset (spec/70_reset_and_hazards.md R240, R241), with the parameters of log 3. -/
def State.reset : State := State.resetOf Config.ofReset

end Sys2Proof.Machine
end

