-- ==== Sys2Proof/Machine/Flags.lean ====
section
/-! DEFINITION. The flags and the read-only views computed from the state: the word of `STATUS`
(spec/10_state.md R22 to R28, R47), the lane masks (R34, R35), the hash total (R33) and `NUM_WORKERS` (R32). No
arithmetic operation of the block sets a carry, overflow, zero or sign flag (R47). -/

namespace Sys2Proof.Machine

/-- The value of `STATUS.STATE` (R23). -/
def EngineState.code : EngineState → BitVec 3
  | .idle => 0
  | .busy => 1
  | .found => 2
  | .exhausted => 3
  | .error => 4

/-- The value of `STATUS.ERR` (R27). -/
def ErrCode.code : ErrCode → BitVec 4
  | .none => 0
  | .illegalCmd => 1
  | .badConcurrency => 2
  | .predRange => 3

/-- The value of `STATUS.OP` (R28). -/
def opCode : Option Instr → BitVec 4
  | none => 0
  | some i => opcode i

/-- The word a read of `STATUS` returns, reserved fields zero (R22). -/
def Status.toWord (s : Status) : Word :=
  (0 : BitVec 16) ++ opCode s.op ++ s.err.code ++ (0 : BitVec 2) ++ BitVec.ofBool s.rej ++ BitVec.ofBool s.predHit ++
    BitVec.ofBool s.resultValid ++ s.state.code

/-- A lane in RUN or PEND (R34, R41). -/
def Lane.active (l : Lane) : Bool := l.phase = .run || l.phase = .pend

/-- A lane in EXH (R35, R41). -/
def Lane.exhausted (l : Lane) : Bool := l.phase = .exh

/-- The word whose bit `i` says whether lane `i` satisfies `p`; bits of lanes that do not exist are 0 (R34, R35). -/
def laneMask (p : Lane → Bool) : List Lane → Word
  | [] => 0
  | l :: ls => (laneMask p ls <<< 1) ||| (BitVec.ofBool (p l)).setWidth 32

/-- `T = (HC[0] + ... + HC[NUM_WORKERS-1]) mod 2^64` (R33). -/
def totalHashes : List Lane → BitVec 64
  | [] => 0
  | l :: ls => l.hashCount + totalHashes ls

/-- The parameter `NUM_WORKERS` (spec/00_scope.md R6; log 18). -/
def State.numWorkers (s : State) : Nat := s.lanes.length

/-- The register `NUM_WORKERS`: the parameter in bits 5:0, zero above (R32). -/
def numWorkersWord (s : State) : Word := (BitVec.ofNat 6 s.numWorkers).setWidth 32

/-- `STATE = BUSY` (R23). -/
def State.busy (s : State) : Bool := s.status.state = .busy

/-- Bits 31:0 of a 64-bit counter (R33, R39). -/
def loWord (v : BitVec 64) : Word := v.extractLsb' 0 32

/-- Bits 63:32 of a 64-bit counter (R33, R39). -/
def hiWord (v : BitVec 64) : Word := v.extractLsb' 32 32

end Sys2Proof.Machine
end

