-- ==== Sys2Proof/Machine/Operands.lean ====
section
/-! DEFINITION. Word operations of the notation (spec/00_scope.md R10, R11), the header's field values
(spec/41_header_predicate.md R121) and the operands that commands and lanes read (spec/30_encoding.md R85). -/

namespace Sys2Proof.Machine

/-- `shr(x, n)`, a logical right shift (R11). -/
def shr (x : Word) (n : Nat) : Word := x >>> n

/-- `rotr(x, n) = shr(x, n) | (x << (32 - n))` on 32 bits, for `0 < n < 32` (R11). -/
def rotr (x : Word) (n : Nat) : Word := shr x n ||| (x <<< (32 - n))

/-- Byte `j` of a word, byte 0 the least significant (R10). -/
def byteOf (w : Word) (j : Nat) : Byte := w.extractLsb' (8 * j) 8

/-- `bswap32(x) = x[7:0] : x[15:8] : x[23:16] : x[31:24]` (R11). -/
def bswap32 (x : Word) : Word := byteOf x 0 ++ byteOf x 1 ++ byteOf x 2 ++ byteOf x 3

/-- `version = bswap32(HDR[0])` (R121); computed by the host. -/
def headerVersion (hdr : Vector Word 20) : Word := bswap32 hdr[0]

/-- `time = bswap32(HDR[17])` (R121); computed by the host. -/
def headerTime (hdr : Vector Word 20) : Word := bswap32 hdr[17]

/-- `nbits = bswap32(HDR[18])` (R121, R122). -/
def headerNbits (hdr : Vector Word 20) : Word := bswap32 hdr[18]

/-- `nonce = bswap32(HDR[19])` (R121); computed by the host. -/
def headerNonce (hdr : Vector Word 20) : Word := bswap32 hdr[19]

/-- `HDR[0..15]`, the block the midstate is computed from (spec/42_sha256d.md R151). -/
def headerFirstBlock (hdr : Vector Word 20) : Vector Word 16 :=
  #v[hdr[0], hdr[1], hdr[2], hdr[3], hdr[4], hdr[5], hdr[6], hdr[7],
     hdr[8], hdr[9], hdr[10], hdr[11], hdr[12], hdr[13], hdr[14], hdr[15]]

/-- `HDR[16..18]`, the tail words: last merkle word, time, nbits (spec/42_sha256d.md R152). -/
def headerTail (hdr : Vector Word 20) : Vector Word 3 := #v[hdr[16], hdr[17], hdr[18]]

/-- `JOB[0..2]`, the tail words a trial reads (spec/10_state.md R38). -/
def jobTail (job : Vector Word 13) : Vector Word 3 := #v[job[0], job[1], job[2]]

/-- `JOB[3..10]`, the midstate a trial reads (spec/10_state.md R38). -/
def jobMidstate (job : Vector Word 13) : Vector Word 8 :=
  #v[job[3], job[4], job[5], job[6], job[7], job[8], job[9], job[10]]

/-- The predicate offset a trial reads: bits 2:0 of `JOB[11]`, whose bits 31:3 are zero (spec/10_state.md R38; log 13). -/
def jobOffset (job : Vector Word 13) : Fin 8 := (job[11].extractLsb' 0 3).toFin

/-- The predicate mask a trial reads, `JOB[12]` (spec/10_state.md R38). -/
def jobMask (job : Vector Word 13) : Word := job[12]

/-- The job window with new tail words and midstate, the predicate words kept (spec/42_sha256d.md R159). -/
def jobWithMidstate (job : Vector Word 13) (tail : Vector Word 3) (mid : Vector Word 8) : Vector Word 13 :=
  #v[tail[0], tail[1], tail[2], mid[0], mid[1], mid[2], mid[3], mid[4], mid[5], mid[6], mid[7], job[11], job[12]]

/-- The job window with new predicate words, the hashing part kept (spec/41_header_predicate.md R128). -/
def jobWithPredicate (job : Vector Word 13) (offset mask : Word) : Vector Word 13 :=
  (job.set 11 offset).set 12 mask

/-- The nonce of offset `k`: `n = S + k[31:0]` with 32-bit wrap-around (spec/43_search.md R172). -/
def trialNonce (start : Word) (k : BitVec 33) : Word := start + k.setWidth 32

end Sys2Proof.Machine
end

