-- ==== Sys2Proof/Machine/Predicate.lean ====
section
/-! DEFINITION. The leading-zero-byte comparator: the derivation of the predicate from nbits
(spec/41_header_predicate.md R122 to R128) and the test of a digest (R129). -/

namespace Sys2Proof.Machine

/-- The pair `offset`, `mask` (spec/00_scope.md R15), the offset in 0 to 7 by its type (R126). -/
structure HashPredicate where
  offset : Fin 8
  mask : Word
deriving DecidableEq, Repr

/-- `exp = nbits[31:24]` (R123). -/
def targetExponent (nbits : Word) : BitVec 8 := nbits.extractLsb' 24 8

/-- `lb = 32 - exp`, signed (R124). -/
def leadingBytes (nbits : Word) : Int := 32 - (targetExponent nbits).toNat

/-- The mask whose low `lb % 4` bytes are 0xFF (R127). -/
def predicateMask (lb : Nat) : Word := (1 <<< (8 * (lb % 4))) - 1

/-- The predicate of a header's word 18, or none outside the domain `0 <= lb <= 31` (R122 to R128). -/
def predicateOf (word18 : Word) : Option HashPredicate :=
  let lb := leadingBytes (bswap32 word18)
  if lb < 0 ∨ lb > 31 then none
  else some { offset := ⟨7 - lb.toNat / 4, by omega⟩, mask := predicateMask lb.toNat }

/-- `Test(offset, mask, d)` (R129). -/
def predicateTest (offset : Fin 8) (mask : Word) (d : Vector Word 8) : Bool :=
  (d.toList.drop (offset.val + 1)).foldl (· ||| ·) (d[offset] &&& mask) == 0

end Sys2Proof.Machine
end

