-- ==== Sys2Proof/Machine/Sha256.lean ====
section
/-! DEFINITION. SHA-256 compression, midstate and double hash (spec/42_sha256d.md R140 to R158). -/

namespace Sys2Proof.Machine

/-- `Ch` (R140). -/
def ch (e f g : Word) : Word := (e &&& f) ^^^ (~~~e &&& g)

/-- `Maj` (R141). -/
def maj (a b c : Word) : Word := (a &&& b) ^^^ (a &&& c) ^^^ (b &&& c)

/-- `Σ0` (R142). -/
def bigSigma0 (x : Word) : Word := rotr x 2 ^^^ rotr x 13 ^^^ rotr x 22

/-- `Σ1` (R143). -/
def bigSigma1 (x : Word) : Word := rotr x 6 ^^^ rotr x 11 ^^^ rotr x 25

/-- `σ0` (R144). -/
def smallSigma0 (x : Word) : Word := rotr x 7 ^^^ rotr x 18 ^^^ shr x 3

/-- `σ1` (R145). -/
def smallSigma1 (x : Word) : Word := rotr x 17 ^^^ rotr x 19 ^^^ shr x 10

/-- The 64 round constants `K[0..63]`, one row of the spec's list a line (R146). -/
def roundConstants : List Word :=
  [0x428a2f98, 0x71374491, 0xb5c0fbcf, 0xe9b5dba5, 0x3956c25b, 0x59f111f1, 0x923f82a4, 0xab1c5ed5] ++
  [0xd807aa98, 0x12835b01, 0x243185be, 0x550c7dc3, 0x72be5d74, 0x80deb1fe, 0x9bdc06a7, 0xc19bf174] ++
  [0xe49b69c1, 0xefbe4786, 0x0fc19dc6, 0x240ca1cc, 0x2de92c6f, 0x4a7484aa, 0x5cb0a9dc, 0x76f988da] ++
  [0x983e5152, 0xa831c66d, 0xb00327c8, 0xbf597fc7, 0xc6e00bf3, 0xd5a79147, 0x06ca6351, 0x14292967] ++
  [0x27b70a85, 0x2e1b2138, 0x4d2c6dfc, 0x53380d13, 0x650a7354, 0x766a0abb, 0x81c2c92e, 0x92722c85] ++
  [0xa2bfe8a1, 0xa81a664b, 0xc24b8b70, 0xc76c51a3, 0xd192e819, 0xd6990624, 0xf40e3585, 0x106aa070] ++
  [0x19a4c116, 0x1e376c08, 0x2748774c, 0x34b0bcb5, 0x391c0cb3, 0x4ed8aa4a, 0x5b9cca4f, 0x682e6ff3] ++
  [0x748f82ee, 0x78a5636f, 0x84c87814, 0x8cc70208, 0x90befffa, 0xa4506ceb, 0xbef9a3f7, 0xc67178f2]

/-- The initial chaining value `H0[0..7]` (R147). -/
def initialHash : Vector Word 8 :=
  #v[0x6a09e667, 0xbb67ae85, 0x3c6ef372, 0xa54ff53a, 0x510e527f, 0x9b05688c, 0x1f83d9ab, 0x5be0cd19]

/-- The schedule's words 0 to 15 + n: the block, then `w[i] = σ1(w[i-2]) + w[i-7] + σ0(w[i-15]) + w[i-16]`, where the
last word added is number `i = 16 + n - 1` (R148). -/
def extendSchedule (block : Vector Word 16) : (n : Nat) → Vector Word (16 + n)
  | 0 => block
  | n + 1 =>
    let w := extendSchedule block n
    w.push (smallSigma1 w[14 + n] + w[9 + n] + smallSigma0 w[1 + n] + w[n])

/-- The 64-word message schedule of a block (R148). -/
def schedule (block : Vector Word 16) : Vector Word 64 := extendSchedule block 48

/-- One round, with the round constant and the schedule word of that round (R149). -/
def sha256Round (v : WorkVars) (kw : Word × Word) : WorkVars :=
  let t1 := v.h + bigSigma1 v.e + ch v.e v.f v.g + kw.1 + kw.2
  let t2 := bigSigma0 v.a + maj v.a v.b v.c
  { a := t1 + t2, b := v.a, c := v.b, d := v.c, e := v.d + t1, f := v.e, g := v.f, h := v.g }

/-- The working variables initialised to a chaining value, in order (R149). -/
def WorkVars.ofState (s : Vector Word 8) : WorkVars :=
  { a := s[0], b := s[1], c := s[2], d := s[3], e := s[4], f := s[5], g := s[6], h := s[7] }

/-- The working variables after the 64 rounds (R149). -/
def sha256Rounds (w : Vector Word 64) (s : Vector Word 8) : WorkVars :=
  (roundConstants.zip w.toList).foldl sha256Round (WorkVars.ofState s)

/-- The feed-forward: the element-wise sum of the round output and the input state (R150). -/
def feedForward (v : WorkVars) (s : Vector Word 8) : Vector Word 8 :=
  #v[v.a + s[0], v.b + s[1], v.c + s[2], v.d + s[3], v.e + s[4], v.f + s[5], v.g + s[6], v.h + s[7]]

/-- `Compress(B, S)` (R150). -/
def compress (block : Vector Word 16) (s : Vector Word 8) : Vector Word 8 :=
  feedForward (sha256Rounds (schedule block) s) s

/-- `ComputeMidstate(HDR) = Compress(HDR[0..15], H0)` (R151). -/
def computeMidstate (hdr : Vector Word 20) : Vector Word 8 := compress (headerFirstBlock hdr) initialHash

/-- The first-round block `B1` of tail words `t` and nonce `n` (R152, R155). -/
def firstBlock (t : Vector Word 3) (n : Word) : Vector Word 16 :=
  #v[t[0], t[1], t[2], bswap32 n, 0x80000000, 0, 0, 0, 0, 0, 0, 0, 0, 0, 0, 0x00000280]

/-- The second-round block `B2` of the first digest (R153, R155). -/
def secondBlock (d : Vector Word 8) : Vector Word 16 :=
  #v[d[0], d[1], d[2], d[3], d[4], d[5], d[6], d[7], 0x80000000, 0, 0, 0, 0, 0, 0, 0x00000100]

/-- `D1`, the first digest (R152). -/
def firstDigest (mid : Vector Word 8) (t : Vector Word 3) (n : Word) : Vector Word 8 := compress (firstBlock t n) mid

/-- `DoubleHash(M, t, n)` (R154). -/
def doubleHash (mid : Vector Word 8) (t : Vector Word 3) (n : Word) : Vector Word 8 :=
  compress (secondBlock (firstDigest mid t n)) initialHash

/-- What a trial leaves in its lane's scratch: the schedule and the working variables of its second compression, the
first and the final digest (R154, spec/10_state.md R43; log 5). DEDUCED: the last values the trial writes there. Unsafe. -/
def trialScratch (mid : Vector Word 8) (t : Vector Word 3) (n : Word) : Scratch :=
  let d1 := firstDigest mid t n
  let w := schedule (secondBlock d1)
  { schedule := w, vars := sha256Rounds w initialHash, first := d1, final := doubleHash mid t n }

end Sys2Proof.Machine
end

