-- ==== Sys2Proof/Machine/Ops.lean ====
section
/-! DEFINITION. The operations shared by the commands, the lanes and the bus: error entry and the way out of it
(spec/60_exceptions.md R214, R216), the derivations of the job window (spec/42_sha256d.md R159,
spec/41_header_predicate.md R128), the result cell (spec/43_search.md R183) and reset (spec/70_reset_and_hazards.md R240). -/

namespace Sys2Proof.Machine

/-- `STATUS.STATE <- e`. -/
def State.setEngine (s : State) (e : EngineState) : State := { s with status := { s.status with state := e } }

/-- `ctrl.pending <- NONE`. -/
def State.clearPending (s : State) : State := { s with pending := none }

/-- `raise Error(code)`, the entry of an error (R214): the code, `STATE = ERROR`, nothing pending; nothing is saved. -/
def raiseError (code : ErrCode) (s : State) : State :=
  { s with status := { s.status with err := code, state := .error }, pending := none }

/-- What a legal command word leaves at its acceptance from any state that is not BUSY (spec/30_encoding.md R84). It is
also the only way out of ERROR but reset: the code is cleared (R216). -/
def acceptLegal (i : Instr) (s : State) : State :=
  { s with
    status := { s.status with rej := false, err := .none, op := some i, state := .busy }
    pending := some i }

/-- What an illegal command word leaves at its acceptance: ILLEGAL_CMD, `OP = 0` (spec/30_encoding.md R84,
spec/60_exceptions.md R211). -/
def acceptIllegal (s : State) : State :=
  raiseError .illegalCmd { s with status := { s.status with rej := false, err := .none, op := none } }

/-- A write or command dropped while BUSY (spec/20_memory.md R64, spec/60_exceptions.md R219). -/
def dropWrite (s : State) : State := { s with status := { s.status with rej := true } }

/-- Command acceptance on a write of `v` to `CMD` (spec/30_encoding.md R84). -/
def acceptCommand (v : Word) (s : State) : State :=
  if s.busy then dropWrite s
  else
    match decode v with
    | .ok i => acceptLegal i s
    | .error _ => acceptIllegal s

/-- `DeriveMidstate()`: `JOB[0..10]` from `HDR[0..18]` (spec/42_sha256d.md R159). -/
def deriveMidstate (s : State) : State :=
  { s with job := jobWithMidstate s.job (headerTail s.hdr) (computeMidstate s.hdr) }

/-- `DerivePredicate()`: whether `HDR[18]` is in the domain, and the state with `JOB[11..12]` written, 0 outside it
(spec/41_header_predicate.md R128). -/
def derivePredicate (s : State) : Bool × State :=
  match predicateOf s.hdr[18] with
  | none => (false, { s with job := jobWithPredicate s.job 0 0 })
  | some p => (true, { s with job := jobWithPredicate s.job (BitVec.ofNat 32 p.offset.val) p.mask })

/-- `DoubleHash(JOB[3..10], JOB[0..2], n)`, the digest of a trial (spec/43_search.md R182). -/
def State.jobDigest (s : State) (n : Word) : Vector Word 8 := doubleHash (jobMidstate s.job) (jobTail s.job) n

/-- `Test(JOB[11], JOB[12], d)` (spec/43_search.md R182, spec/41_header_predicate.md R132). -/
def State.jobTest (s : State) (d : Vector Word 8) : Bool := predicateTest (jobOffset s.job) (jobMask s.job) d

/-- Whether the trial of nonce `n` hits (spec/43_search.md R182). -/
def State.hits (s : State) (n : Word) : Bool := s.jobTest (s.jobDigest n)

/-- `Publish(n)`, the compare-and-set of the result cell (spec/43_search.md R183). -/
def publish (n : Word) (s : State) : State :=
  if s.status.resultValid then s
  else { s with resultNonce := n, status := { s.status with resultValid := true } }

/-- Reset (spec/70_reset_and_hazards.md R240): every piece of the block's state to its reset value, the parameters and
what is outside the block kept (log 16). -/
def resetInput (s : State) : State :=
  { State.resetOf { base := s.base, numWorkers := s.numWorkers } with
    script := s.script, turns := s.turns, choices := s.choices, lastRead := s.lastRead }

end Sys2Proof.Machine
end

