-- ==== Sys2Proof/Machine/Commands.lean ====
section
/-! DEFINITION. The meanings of the four commands: for each, the one atomic controller step that executes it after its
acceptance (spec/42_sha256d.md R160, R161, spec/41_header_predicate.md R132, spec/43_search.md R178; log 9). -/

namespace Sys2Proof.Machine

/-- PREPARE (spec/42_sha256d.md R160). -/
def execPrepare (s : State) : Host.Outcome State Fault Refusal :=
  match derivePredicate (deriveMidstate s.clearPending) with
  | (true, s') => .next (s'.setEngine .idle)
  | (false, s') => .next (raiseError .predRange s')

/-- `DIGEST[0..7] <- d`. -/
def State.setDigest (s : State) (d : Vector Word 8) : State := { s with digest := d }

/-- HASH (spec/42_sha256d.md R161). -/
def execHash (s : State) : Host.Outcome State Fault Refusal :=
  let s' := deriveMidstate s.clearPending
  .next ((s'.setDigest (s'.jobDigest s'.startNonce)).setEngine .idle)

/-- `STATUS.PRED_HIT <- b`. -/
def State.setPredHit (s : State) (b : Bool) : State := { s with status := { s.status with predHit := b } }

/-- TEST (spec/41_header_predicate.md R132). -/
def execTest (s : State) : Host.Outcome State Fault Refusal :=
  match derivePredicate s.clearPending with
  | (true, s') => .next ((s'.setPredHit (s'.jobTest s'.digest)).setEngine .idle)
  | (false, s') => .next (raiseError .predRange (s'.setPredHit false))

/-- `c` is a legal lane count: `1 <= c <= NUM_WORKERS` (spec/43_search.md R177). -/
def State.legalConcurrency (s : State) : Bool := 1 ≤ s.concurrency.toNat && s.concurrency.toNat ≤ s.numWorkers

/-- What a launch makes of lane `i`: RUN at offset `i` for `i < c`, IDLE otherwise, its counter cleared
(spec/43_search.md R178); its scratch is not touched (log 19). -/
def launchLane (c : Nat) (i : Nat) (l : Lane) : Lane :=
  if i < c then { l with phase := .run, k := BitVec.ofNat 33 i, hashCount := 0 }
  else { l with phase := .idle, k := 0, hashCount := 0 }

/-- The launch of all lanes, the result cell cleared (spec/43_search.md R178). -/
def launch (s : State) : State :=
  { s with
    status := { s.status with resultValid := false }
    resultNonce := 0
    lanes := s.lanes.mapIdx (launchLane s.concurrency.toNat)
    searching := true }

/-- SEARCH: the launch step (spec/43_search.md R174, R178). -/
def execSearch (s : State) : Host.Outcome State Fault Refusal :=
  let s := s.clearPending
  if s.legalConcurrency then
    match derivePredicate (deriveMidstate s) with
    | (true, s') => .next (launch s')
    | (false, s') => .next (raiseError .predRange s')
  else .next (raiseError .badConcurrency s)

end Sys2Proof.Machine
end

