-- ==== Sys2Proof/Machine/Dispatch.lean ====
section
/-! DEFINITION. The meaning of each command. -/

namespace Sys2Proof.Machine

def exec (i : Instr) (s : State) : Host.Outcome State Fault Refusal :=
  match i with
  | .prepare => Sys2Proof.Machine.execPrepare s
  | .hash => Sys2Proof.Machine.execHash s
  | .test => Sys2Proof.Machine.execTest s
  | .search => Sys2Proof.Machine.execSearch s

end Sys2Proof.Machine
end

