-- ==== Sys2Proof/Machine/Bus.lean ====
section
/-! DEFINITION. Host accesses to the register window (spec/20_memory.md R60 to R73). -/

namespace Sys2Proof.Machine

/-- The value of a register at the instant of a read (R63, spec/10_state.md R21 to R39). The counter places of lanes
that do not exist are reserved and read 0 (R66). -/
def readReg (s : State) : RegName → Word
  | .cmd => 0
  | .status => s.status.toWord
  | .startNonce => s.startNonce
  | .concurrency => s.concurrency
  | .resultNonce => s.resultNonce
  | .numWorkers => numWorkersWord s
  | .totalHashesLo => loWord (totalHashes s.lanes)
  | .totalHashesHi => hiWord (totalHashes s.lanes)
  | .laneActive => laneMask Lane.active s.lanes
  | .laneExhausted => laneMask Lane.exhausted s.lanes
  | .hdr i => s.hdr[i]
  | .digest i => s.digest[i]
  | .job i => s.job[i]
  | .laneHcLo i => laneCounter s i.val loWord
  | .laneHcHi i => laneCounter s i.val hiWord
where
  laneCounter (s : State) (i : Nat) (half : BitVec 64 → Word) : Word :=
    match s.lanes[i]? with
    | none => 0
    | some l => half l.hashCount

/-- A write to a host-writable data register, dropped while BUSY (R64). -/
def writeData (s : State) (written : State) : State := if s.busy then dropWrite s else written

/-- A legal write of `v` to a register (R64 to R66): `CMD` takes a command, a data register is written, a read-only
register ignores it. -/
def writeReg (s : State) (r : RegName) (v : Word) : State :=
  match r with
  | .cmd => acceptCommand v s
  | .startNonce => writeData s { s with startNonce := v }
  | .concurrency => writeData s { s with concurrency := v }
  | .hdr i => writeData s { s with hdr := s.hdr.set i v }
  | .digest i => writeData s { s with digest := s.digest.set i v }
  | .status => s
  | .resultNonce => s
  | .numWorkers => s
  | .totalHashesLo => s
  | .totalHashesHi => s
  | .laneActive => s
  | .laneExhausted => s
  | .job _ => s
  | .laneHcLo _ => s
  | .laneHcHi _ => s

/-- The offset of an access of `n` bytes at bus address `addr`: `off = addr - BASE` (R60), outside the window a fault
of its own (log 7), in it a bus error unless 4 bytes wide and aligned on 4 (R61, R62). -/
def accessOffset (base addr n : Nat) : Except Fault Nat :=
  if addr < base ∨ base + Config.windowSize ≤ addr then .error .outsideWindow
  else if n ≠ 4 ∨ (addr - base) % 4 ≠ 0 then .error .busError
  else .ok (addr - base)

/-- `MemRead(addr, n)` (R61 to R63, R66): no side effect; a reserved offset reads 0. -/
def busRead (s : State) (addr n : Nat) : Except Fault Word :=
  match accessOffset s.base addr n with
  | .error f => .error f
  | .ok off =>
    match regAt off with
    | some r => .ok (readReg s r)
    | none => .ok 0

/-- `MemWrite(addr, n, v)` (R61, R62, R64 to R66): a write to a reserved offset is ignored. -/
def busWrite (s : State) (addr n : Nat) (v : Word) : Except Fault State :=
  match accessOffset s.base addr n with
  | .error f => .error f
  | .ok off =>
    match regAt off with
    | some r => .ok (writeReg s r v)
    | none => .ok s

end Sys2Proof.Machine
end

