-- ==== Sys2Proof/Machine/Codec.lean ====
section
/-! DEFINITION. The host's reference functions on header text (spec/40_codec_host.md R100 to R109). They run on the
host, not in the block. A text is a list of characters (log 15). -/

namespace Sys2Proof.Machine

/-- `InvalidInput`, the host-side parse error (R101, R102, R106, R107, R109). -/
inductive HostError where
  | invalidInput
deriving DecidableEq, Repr

/-- The value of a hex character, letters of either case; none for any other character (R102). -/
def hexVal (c : Char) : Option (BitVec 4) :=
  if '0' ≤ c ∧ c ≤ '9' then some (BitVec.ofNat 4 (c.toNat - '0'.toNat))
  else if 'a' ≤ c ∧ c ≤ 'f' then some (BitVec.ofNat 4 (c.toNat - 'a'.toNat + 10))
  else if 'A' ≤ c ∧ c ≤ 'F' then some (BitVec.ofNat 4 (c.toNat - 'A'.toNat + 10))
  else none

/-- The values of a list of hex characters, `InvalidInput` where one is no hex character (R102). -/
def hexVals : List Char → Except HostError (List (BitVec 4))
  | [] => .ok []
  | c :: cs =>
    match hexVal c, hexVals cs with
    | some v, .ok vs => .ok (v :: vs)
    | _, _ => .error .invalidInput

/-- The word of eight nibbles, the first in bits 31:28 (R103). -/
def wordOfNibbles (a b c d e f g h : BitVec 4) : Word := a ++ b ++ c ++ d ++ e ++ f ++ g ++ h

/-- The words of a list of nibbles, eight to a word; `InvalidInput` unless the length is a multiple of 8
(R101, R103). -/
def wordsOfNibbles : List (BitVec 4) → Except HostError (List Word)
  | [] => .ok []
  | a :: b :: c :: d :: e :: f :: g :: h :: rest =>
    match wordsOfNibbles rest with
    | .ok ws => .ok (wordOfNibbles a b c d e f g h :: ws)
    | .error x => .error x
  | _ => .error .invalidInput

/-- `parseHex` (R101 to R103). -/
def parseHex (hex : List Char) : Except HostError (List Word) :=
  match hexVals hex with
  | .ok vs => wordsOfNibbles vs
  | .error x => .error x

/-- The lower-case hex digit of a nibble (R104). -/
def hexDigit (v : BitVec 4) : Char :=
  if v.toNat < 10 then Char.ofNat ('0'.toNat + v.toNat) else Char.ofNat ('a'.toNat + (v.toNat - 10))

/-- The eight characters of a word, most significant nibble first (R104). -/
def printWord (w : Word) : List Char :=
  [hexDigit (w.extractLsb' 28 4), hexDigit (w.extractLsb' 24 4), hexDigit (w.extractLsb' 20 4),
   hexDigit (w.extractLsb' 16 4), hexDigit (w.extractLsb' 12 4), hexDigit (w.extractLsb' 8 4),
   hexDigit (w.extractLsb' 4 4), hexDigit (w.extractLsb' 0 4)]

/-- `printWords` (R104). -/
def printWords (ws : List Word) : List Char := ws.flatMap printWord

/-- The pairs of characters of a text in reverse order, put before `acc`; none where the length is odd. -/
def reversePairs : List Char → List Char → Option (List Char)
  | [], acc => some acc
  | [_], _ => none
  | a :: b :: rest, acc => reversePairs rest (a :: b :: acc)

/-- `reverseByteOrder` (R106). -/
def reverseByteOrder (hex : List Char) : Except HostError (List Char) :=
  match reversePairs hex [] with
  | some out => .ok out
  | none => .error .invalidInput

/-- `parseHeader`: `parseHex` of exactly 160 characters (R107). -/
def parseHeader (hex : List Char) : Except HostError (List Word) :=
  if hex.length = 160 then parseHex hex else .error .invalidInput

end Sys2Proof.Machine
end

