-- ==== Sys2Proof/Machine/HostScript.lean ====
section
/-! DEFINITION. The host: its script notation (spec/30_encoding.md R86, R87), its atomic step (spec/00_scope.md R13,
spec/20_memory.md R72), and the statistics it computes from the counters (spec/44_stats.md R203). -/

namespace Sys2Proof.Machine

/-- `WR <reg>, <value>` (R86). -/
def stmtWr (base : Nat) (r : RegName) (v : Word) : HostStmt := .write (base + offsetOf r) 4 v

/-- `RD <reg>` (R86). -/
def stmtRd (base : Nat) (r : RegName) : HostStmt := .read (base + offsetOf r) 4

/-- `CMD <mnemonic>` (R86). -/
def stmtCmd (base : Nat) (i : Instr) : HostStmt := stmtWr base .cmd (encode i)

/-- `CMD .word <value>` (R86). -/
def stmtCmdWord (base : Nat) (v : Word) : HostStmt := stmtWr base .cmd v

/-- The writes of header words in increasing order of index (R87, spec/40_codec_host.md R108). -/
def headerWrites (base : Nat) (words : List Word) : List HostStmt :=
  (List.finRange 20).zipWith (fun i w => stmtWr base (.hdr i) w) words

/-- `LOADHDR <text>` (R87); `InvalidInput` at parse time, before any write (spec/40_codec_host.md R109). -/
def stmtsLoadHdr (base : Nat) (text : List Char) : Except HostError (List HostStmt) :=
  match parseHeader text with
  | .ok words => .ok (headerWrites base words)
  | .error x => .error x

/-- `SEARCHN <start>, <conc>` (R87). -/
def stmtsSearchN (base : Nat) (start conc : Word) : List HostStmt :=
  [stmtWr base .startNonce start, stmtWr base .concurrency conc, stmtCmd base .search, .wait]

/-- One host access, the statement already taken from the script (spec/20_memory.md R62 to R66, R72). -/
def hostAccess (stmt : HostStmt) (s : State) : Host.Outcome State Fault Refusal :=
  match stmt with
  | .read addr n =>
    match busRead s addr n with
    | .ok v => .next { s with lastRead := some v }
    | .error f => .fault f
  | .write addr n v =>
    match busWrite s addr n v with
    | .ok s' => .next s'
    | .error f => .fault f
  | .wait => .next { s with lastRead := some (readReg s .status) }

/-- A statement stays in the script after its access: `WAIT` that has read BUSY (R87; log 11). -/
def staysInScript (stmt : HostStmt) (s : State) : Bool := stmt = .wait && s.busy

/-- The host's step: its next access; none where the script is used up. -/
def hostStep (s : State) : Host.Outcome State Fault Refusal :=
  match s.script with
  | [] => .next s
  | stmt :: rest => hostAccess stmt (if staysInScript stmt s then s else { s with script := rest })

/-- `totalHashes = TOTAL_HASHES_HI * 2^32 + TOTAL_HASHES_LO`, from two reads (spec/44_stats.md R203). -/
def hostTotal (hi lo : Word) : Nat := hi.toNat * 2 ^ 32 + lo.toNat

/-- `Stats` (spec/44_stats.md R203). Not part of the machine's state: the host makes it. -/
structure Stats where
  totalHashes : BitVec 64
  elapsedSeconds : Float

/-- `snapshot(elapsedSeconds)` of the two halves the host read (spec/44_stats.md R203). -/
def snapshot (hi lo : Word) (elapsedSeconds : Float) : Stats :=
  { totalHashes := BitVec.ofNat 64 (hostTotal hi lo), elapsedSeconds := elapsedSeconds }

/-- `hashRate = totalHashes / max(elapsedSeconds, 1e-8)` in binary64 (spec/44_stats.md R203; log 14). -/
def Stats.hashRate (st : Stats) : Float :=
  Float.ofNat st.totalHashes.toNat / (if st.elapsedSeconds < 1e-8 then 1e-8 else st.elapsedSeconds)

end Sys2Proof.Machine
end

