-- ==== Sys2Proof/Machine/Lanes.lean ====
section
/-! DEFINITION. The lane loop and the finish step of a search (spec/43_search.md R181 to R186). -/

namespace Sys2Proof.Machine

/-- Where the begin step of a lane leads: EXH where its share is used up, which is checked first, FOUND where a result
exists, PEND otherwise (R181). -/
def beginPhase (resultValid : Bool) (k : BitVec 33) : Phase :=
  if k.toNat ≥ 2 ^ 32 then .exh else if resultValid then .found else .pend

/-- The state with lane `i` replaced; the state itself where there is no such lane. -/
def State.setLane (s : State) (i : Nat) (l : Lane) : State := { s with lanes := s.lanes.set i l }

/-- The begin step of lane `i`, whose contents are `l` (R181). -/
def beginStep (i : Nat) (l : Lane) (s : State) : State :=
  s.setLane i { l with phase := beginPhase s.status.resultValid l.k }

/-- A lane after its trial of nonce `n`: the trial counted, the scratch overwritten (R182, spec/44_stats.md R200). -/
def Lane.counted (l : Lane) (s : State) (n : Word) : Lane :=
  { l with hashCount := l.hashCount + 1, scratch := trialScratch (jobMidstate s.job) (jobTail s.job) n }

/-- The complete step of lane `i`, whose contents are `l` (R182): hash, test, count; on a hit publish and stop, on a
miss advance `k` by `CONCURRENCY` and go back to RUN. -/
def completeStep (i : Nat) (l : Lane) (s : State) : State :=
  let n := trialNonce s.startNonce l.k
  let l' := l.counted s n
  if s.hits n then (publish n s).setLane i { l' with phase := .found }
  else s.setLane i { l' with k := l'.k + s.concurrency.setWidth 33, phase := .run }

/-- The step of lane `i`: begin from RUN, complete from PEND, none from any other phase (R179, R181, R182). -/
def laneStep (i : Nat) (s : State) : State :=
  match s.lanes[i]? with
  | none => s
  | some l =>
    match l.phase with
    | .run => beginStep i l s
    | .pend => completeStep i l s
    | .idle => s
    | .found => s
    | .exh => s

/-- The finish step is enabled: a search runs and no lane is in RUN or PEND (R186). -/
def State.canFinish (s : State) : Bool := s.searching && s.lanes.all (fun l => !l.active)

/-- The finish step (R186). -/
def finish (s : State) : State :=
  { s with
    searching := false
    status := { s.status with state := if s.status.resultValid then .found else .exhausted } }

end Sys2Proof.Machine
end

