-- ==== Sys2Proof/Machine/Agents.lean ====
section
/-! DEFINITION. The agents, their enabled steps and the choice of the next turn (spec/00_scope.md R13,
spec/93_implementation_defined.md U2). -/

namespace Sys2Proof.Machine

/-- The controller's step: the pending command is executed; with none pending, a search whose lanes have all stopped
is finished; otherwise nothing happens (spec/10_state.md R40, spec/43_search.md R186; logs 8, 12). -/
def controllerStep (s : State) : Host.Outcome State Fault Refusal :=
  match s.pending with
  | some i => exec i s
  | none => .next (if s.canFinish then finish s else s)

/-- The atomic step of a turn. A turn given to an agent that has no enabled step changes nothing (log 8). -/
def takeTurn (t : Turn) (s : State) : Host.Outcome State Fault Refusal :=
  match t with
  | .host => hostStep s
  | .controller => controllerStep s
  | .lane i => .next (laneStep i s)
  | .reset => .next (resetInput s)

/-- Whether the agent of a turn has an enabled step (spec/00_scope.md R13, spec/70_reset_and_hazards.md R256). The
reset input is no agent of the block: it comes only from outside (log 16). -/
def turnEnabled (s : State) : Turn → Bool
  | .host => !s.script.isEmpty
  | .controller => s.pending.isSome || s.canFinish
  | .lane i =>
    match s.lanes[i]? with
    | some l => l.active
    | none => false
  | .reset => false

/-- The turns of all agents: the host, the controller, the lanes. -/
def State.allTurns (s : State) : List Turn := .host :: .controller :: (List.range s.numWorkers).map .lane

/-- The turns of the agents that have an enabled step. -/
def State.enabledTurns (s : State) : List Turn := s.allTurns.filter (turnEnabled s)

/-- Where no turn is fixed in advance, the next turn is any one of an agent with an enabled step: which one is the free
value `Config.nextTurn` (log 2); none where no agent has an enabled step. -/
def State.freeTurn (s : State) : Option Turn :=
  match s.enabledTurns with
  | [] => none
  | [t] => some t
  | t :: ts => (t :: ts)[Config.nextTurn s.choices % (t :: ts).length]?

/-- The next atomic step of the machine: the first turn fixed in advance, or a free one; with no agent enabled the
machine is quiescent and stays as it is (spec/70_reset_and_hazards.md R257). -/
def nextStep (s : State) : Host.Outcome State Fault Refusal :=
  match s.turns with
  | t :: rest => takeTurn t { s with turns := rest }
  | [] =>
    match s.freeTurn with
    | some t => takeTurn t { s with choices := s.choices + 1 }
    | none => .next s

/-- The state right after the host's write of the command word `w` to `CMD` was taken by a block that is not BUSY,
with the controller to move next (spec/30_encoding.md R84; log 9). -/
def State.withCommand (s : State) (w : Word) : State :=
  let s' := acceptCommand w (s.setEngine .idle)
  { s' with turns := .controller :: s'.turns }

end Sys2Proof.Machine
end

