-- ==== Sys2Proof/Machine/Step.lean ====
section
/-! DEFINITION. The step of the machine, and the placing of a command where the next step runs it. -/

namespace Sys2Proof.Machine

/-- One atomic step of one agent (spec/00_scope.md R13). -/
def step (s : State) : Host.Outcome State Fault Refusal := nextStep s

/-- `s` with the command whose bits are `w` accepted, so that the very next step is the controller's step that executes
it (log 9). -/
def State.withFetchWord (s : State) (nbits w : Nat) : State := s.withCommand (BitVec.ofNat 32 (w % 2 ^ nbits))

end Sys2Proof.Machine
end

