-- ==== Sys2Proof/Machine/Reference.lean ====
section
/-! DEFINITION. SHA-256 of a byte message and the byte readings of header and digest, to say what the double hash is
(spec/42_sha256d.md R155, R156, spec/20_memory.md R68 to R70). No step of the machine uses this file. -/

namespace Sys2Proof.Machine

/-- The four bytes of a message word, most significant first (spec/20_memory.md R68). -/
def wordBytes (w : Word) : List Byte := [byteOf w 3, byteOf w 2, byteOf w 1, byteOf w 0]

/-- The bytes of a list of message words (spec/20_memory.md R68). -/
def wordsBytes (ws : List Word) : List Byte := ws.flatMap wordBytes

/-- The 80 bytes that are hashed for nonce `n`: `HDR[0..18]` big-endian, then the bytes of `n` least significant first
(spec/20_memory.md R69, spec/42_sha256d.md R156). -/
def headerBytes (hdr : Vector Word 20) (n : Word) : List Byte :=
  wordsBytes (hdr.toList.take 19) ++ [byteOf n 0, byteOf n 1, byteOf n 2, byteOf n 3]

/-- SHA-256's padding: a 1 bit, zero bits up to a multiple of 64 bytes, the 64-bit big-endian bit length
(spec/42_sha256d.md R155; log 20). -/
def sha256Pad (msg : List Byte) : List Byte :=
  let len : BitVec 64 := BitVec.ofNat 64 (8 * msg.length)
  msg ++ 0x80 :: List.replicate ((119 - msg.length % 64) % 64) 0 ++
    wordsBytes [len.extractLsb' 32 32, len.extractLsb' 0 32]

/-- The big-endian words of a message; bytes short of a word are dropped (spec/20_memory.md R68). -/
def bytesWords : List Byte → List Word
  | a :: b :: c :: d :: rest => (a ++ b ++ c ++ d) :: bytesWords rest
  | _ => []

/-- The chaining value after the whole 16-word blocks of a message (spec/42_sha256d.md R150). -/
def compressBlocks : List Word → Vector Word 8 → Vector Word 8
  | a0 :: a1 :: a2 :: a3 :: a4 :: a5 :: a6 :: a7 :: a8 :: a9 :: a10 :: a11 :: a12 :: a13 :: a14 :: a15 :: rest, s =>
    compressBlocks rest (compress #v[a0, a1, a2, a3, a4, a5, a6, a7, a8, a9, a10, a11, a12, a13, a14, a15] s)
  | _, s => s

/-- SHA-256 of a message, as bytes (spec/42_sha256d.md R155, R156; log 20). -/
def sha256 (msg : List Byte) : List Byte :=
  wordsBytes (compressBlocks (bytesWords (sha256Pad msg)) initialHash).toList

/-- The digest's bytes, most significant first in the predicate's reading: `d[7][7:0]`, `d[7][15:8]`, `d[7][23:16]`,
`d[7][31:24]`, `d[6][7:0]`, down to `d[0][31:24]` (spec/20_memory.md R70). -/
def significantBytes (d : Vector Word 8) : List Byte :=
  d.toList.reverse.flatMap fun w => [byteOf w 0, byteOf w 1, byteOf w 2, byteOf w 3]

end Sys2Proof.Machine
end

