-- ==== Sys2Proof/Safety.lean ====
section
/-! DEFINITION. The terms claims are stated in: legal states, the progress of a search, its outcome, schedules and
weak fairness. -/

namespace Sys2Proof.Machine

/-- `exp = HDR[18][7:0]` (spec/41_header_predicate.md R123). -/
def State.exponent (s : State) : Nat := s.hdr[18].toNat % 256

/-- The domain of the predicate derivation, `1 <= exp <= 32` (spec/41_header_predicate.md R125). -/
def State.inDomain (s : State) : Prop := 1 ≤ s.exponent ∧ s.exponent ≤ 32

/-- The job window `job` holds the tail words and the midstate of the header in `s` (spec/10_state.md R38). -/
def HashesHeader (s : State) (job : Vector Word 13) : Prop :=
  jobTail job = headerTail s.hdr ∧ jobMidstate job = computeMidstate s.hdr

/-- The job window `job` holds the predicate of the header in `s`, whose exponent is in the domain: the offset
`7 - lb / 4` and the mask of the low `lb % 4` bytes, for `lb = 32 - exp` (spec/41_header_predicate.md R126, R127). -/
def HoldsPredicate (s : State) (job : Vector Word 13) : Prop :=
  job[11].toNat = 7 - (32 - s.exponent) / 4 ∧ job[12].toNat = 2 ^ (8 * ((32 - s.exponent) % 4)) - 1

/-- The job window of `s` is the one that PREPARE or a launch derives from the header in `s`, whose exponent is in the
domain (spec/42_sha256d.md R160, spec/43_search.md R178). -/
def State.jobOfHeader (s : State) : Prop := s.inDomain ∧ HashesHeader s s.job ∧ HoldsPredicate s s.job

/-- The `32 - exp` most significant bytes of the double hash of the header in `s` with nonce `n` are all zero
(spec/41_header_predicate.md R130, spec/42_sha256d.md R154). -/
def State.headerPasses (s : State) (n : Word) : Prop :=
  ∀ b ∈ (significantBytes (doubleHash (computeMidstate s.hdr) (headerTail s.hdr) n)).take (32 - s.exponent), b = 0

/-- A host-writable data register (spec/20_memory.md R64). -/
def isDataReg : RegName → Bool
  | .startNonce => true
  | .concurrency => true
  | .hdr _ => true
  | .digest _ => true
  | _ => false

/-- A read-only register (spec/20_memory.md R66). -/
def isReadOnlyReg (r : RegName) : Bool := !isDataReg r && decide (r ≠ .cmd)

/-- The offset of a search with start nonce and job window of `s` is a hit (spec/43_search.md R188). -/
def State.hitAt (s : State) (k : Nat) : Bool := s.hits (s.startNonce + BitVec.ofNat 32 k)

/-- The lane count of the search, `c`. -/
def State.laneCount (s : State) : Nat := s.concurrency.toNat

/-- What holds of control and status at every moment (spec/00_scope.md R6, R7, spec/10_state.md R23, R24, R27, R28, R31,
R38, R40, spec/43_search.md R186). -/
structure ControlOk (s : State) : Prop where
  lanes_pos : 1 ≤ s.lanes.length
  lanes_le : s.lanes.length ≤ 32
  base_aligned : s.base % Config.windowSize = 0
  /-- `STATE = BUSY` exactly when a command is pending or a search runs (R23). -/
  busy_iff : s.status.state = .busy ↔ (s.pending ≠ none ∨ s.searching = true)
  /-- `ERR != NONE` exactly when `STATE = ERROR` (R27). -/
  error_iff : s.status.err ≠ .none ↔ s.status.state = .error
  /-- A command is accepted only while no search runs (spec/30_encoding.md R84). -/
  pending_alone : s.pending ≠ none → s.searching = false
  /-- `OP` is the accepted command while it is pending, and SEARCH while a search runs (R28). -/
  op_pending : s.pending ≠ none → s.status.op = s.pending
  op_searching : s.searching = true → s.status.op = some .search
  /-- Lanes are in RUN or PEND only while a search runs (R41, spec/43_search.md R186). -/
  lanes_stopped : s.searching = false → ∀ l ∈ s.lanes, l.active = false
  /-- `RESULT_NONCE` is 0 while `RESULT_VALID` is 0 (R31). -/
  result_clear : s.status.resultValid = false → s.resultNonce = 0
  /-- The stored offset is 0 to 7 (R38). -/
  offset_range : s.job[11].toNat ≤ 7

/-- What holds of lane `i < c`, whose contents are `l`, while a search runs (spec/43_search.md R171, R180 to R182). -/
structure LaneProgress (s : State) (i : Nat) (l : Lane) : Prop where
  not_idle : l.phase ≠ .idle
  /-- The lane stays on its arithmetic progression (R171). -/
  on_share : l.k.toNat % s.laneCount = i
  /-- `k` never reaches `2^32 + c` (R180). -/
  k_bound : l.k.toNat < 2 ^ 32 + s.laneCount
  pend_below : l.phase = .pend → l.k.toNat < 2 ^ 32
  found_below : l.phase = .found → l.k.toNat < 2 ^ 32
  exh_above : l.phase = .exh → 2 ^ 32 ≤ l.k.toNat
  /-- Every earlier offset of its share was tried and missed (R182). -/
  missed : ∀ k, k < l.k.toNat → k < 2 ^ 32 → k % s.laneCount = i → s.hitAt k = false
  /-- `HC` counts the trials: one for each earlier offset of the share, and one more where the lane stopped on a hit
  (R182, spec/44_stats.md R200). -/
  counted : l.k.toNat = i + s.laneCount * l.hashCount.toNat ∨
    (l.phase = .found ∧ s.hitAt l.k.toNat = true ∧ l.k.toNat + s.laneCount = i + s.laneCount * l.hashCount.toNat)

/-- What holds while a search runs (spec/43_search.md R177, R179 to R185). -/
structure SearchOk (s : State) : Prop where
  count_pos : 1 ≤ s.laneCount
  count_le : s.laneCount ≤ s.numWorkers
  /-- Lanes `i >= c` take no part (R179). -/
  spare_idle : ∀ i l, s.lanes[i]? = some l → s.laneCount ≤ i → l.phase = .idle ∧ l.k = 0 ∧ l.hashCount = 0
  progress : ∀ i l, s.lanes[i]? = some l → i < s.laneCount → LaneProgress s i l
  /-- A lane is in FOUND only once a result exists (R181, R182). -/
  found_published : s.status.resultValid = false → ∀ l ∈ s.lanes, l.phase ≠ .found
  /-- A result is the nonce of the offset on which a lane hit and stopped (R183, R188). -/
  published : s.status.resultValid = true → ∃ i l, s.lanes[i]? = some l ∧ i < s.laneCount ∧ l.phase = .found ∧
    s.resultNonce = trialNonce s.startNonce l.k ∧ s.hitAt l.k.toNat = true ∧
    l.k.toNat + s.laneCount = i + s.laneCount * l.hashCount.toNat

/-- What the two outcomes of a search mean (spec/43_search.md R187, R189). -/
structure OutcomeOk (s : State) : Prop where
  /-- A reported nonce passes the predicate (R187). -/
  found_sound : s.status.state = .found → s.status.resultValid = true ∧ s.hits s.resultNonce = true
  /-- EXHAUSTED: no nonce passes, and `2^32` trials were made (R189). -/
  exhausted_none : s.status.state = .exhausted → s.status.resultValid = false ∧ ∀ n, s.hits n = false
  exhausted_total : s.status.state = .exhausted → totalHashes s.lanes = BitVec.ofNat 64 (2 ^ 32)

/-- `k` is a hit of the search and the first of its lane's share (spec/43_search.md R188). -/
def State.firstHitOfShare (s : State) (k : Nat) : Prop :=
  k < 2 ^ 32 ∧ s.hitAt k = true ∧ ∀ k', k' < k → k' % s.laneCount = k % s.laneCount → s.hitAt k' = false

/-- The run whose `n`-th turn is `σ n`, none once a step has stopped. -/
def runUnder (σ : Nat → Turn) (s : State) : Nat → Option State
  | 0 => some s
  | n + 1 =>
    match runUnder σ s n with
    | none => none
    | some u =>
      match step { u with turns := [σ n] } with
      | .next t => some t
      | .fault _ => none
      | .refused _ => none

/-- Weak fairness to the controller and the lanes: one whose step is enabled continuously from some moment on takes a
turn at or after it (spec/70_reset_and_hazards.md R256). -/
def WeaklyFair (σ : Nat → Turn) (s : State) : Prop :=
  ∀ a : Turn, a ≠ .host → a ≠ .reset → ∀ n,
    (∀ m u, n ≤ m → runUnder σ s m = some u → turnEnabled u a = true) → ∃ m, n ≤ m ∧ σ m = a

/-- One lockstep round of `c` lanes: each begins in increasing lane order, then each completes in increasing lane order
(spec/43_search.md R195). -/
def lockstepRound (c : Nat) : List Turn := (List.range c).map .lane ++ (List.range c).map .lane

/-- `n` lockstep rounds of `c` lanes. -/
def lockstepRounds (c n : Nat) : List Turn := (List.replicate n (lockstepRound c)).flatten

end Sys2Proof.Machine
end

