-- ==== Sys2Proof/Certificates/Slice0/Obligations.lean ====
section
/-! DEFINITION. The statements for the provers. Each docstring names the rules of spec/ the statement rests on. -/

open Sys2Proof Sys2Proof.Machine

/-! ### Encoding -/

/-- R80, R81, R82: the words of the table, and the illegal words of vector V-A6 and P6, numbered as the table numbers them. -/
def Obligations.CommandWordsDecode : Prop :=
  decodeTableWord 32 0x00000001 = some .prepare ∧ decodeTableWord 32 0x00000002 = some .hash ∧
  decodeTableWord 32 0x00000003 = some .test ∧ decodeTableWord 32 0x00000004 = some .search ∧
  decodeTableWord 32 0x00000000 = none ∧ decodeTableWord 32 0x00000005 = none ∧
  decodeTableWord 32 0x0000000F = none ∧ decodeTableWord 32 0x00000010 = none ∧
  decodeTableWord 32 0x00000014 = none ∧ decodeTableWord 32 0x80000001 = none

/-- R80, R81, R82: a word is a command exactly when it is the word the encoder writes for it, and it is illegal exactly
when its opcode is 0 or 5 to 15 or a bit above the opcode is set. -/
def Obligations.DecodeAcceptsExactlyTheCommandWords : Prop :=
  ∀ w : Word,
    (∀ i : Instr, decode w = .ok i ↔ w = encode i) ∧
    ((∃ x, decode w = .error x) ↔ (w.toNat % 16 = 0 ∨ 5 ≤ w.toNat % 16 ∨ 16 ≤ w.toNat))

/-- R71: the offsets of the register window. Reading the map at a register's offset gives the register, and every
offset of the window at which the map gives a register is that register's. -/
def Obligations.RegisterMapRoundTrips : Prop :=
  (∀ r : RegName, regAt (offsetOf r) = some r ∧ offsetOf r < 0x400 ∧ offsetOf r % 4 = 0) ∧
  (∀ (off : Nat) (r : RegName), regAt off = some r → offsetOf r = off)

/-! ### The step -/

/-- R13, R40: the controller's turn executes the pending command, the turn used up. -/
def Obligations.ControllerTurnRunsPendingCommand : Prop :=
  ∀ (s : State) (i : Instr) (rest : List Turn), s.turns = .controller :: rest → s.pending = some i →
    step s = exec i { s with turns := rest }

/-- R65, R73, R84: a word the host writes to `CMD` while not BUSY, when it decodes to a command, is executed at the
controller's next turn, on the state its acceptance left. -/
def Obligations.WrittenCommandIsExecuted : Prop :=
  ∀ (s : State) (w : Word) (i : Instr) (script : List HostStmt) (rest : List Turn),
    decode w = .ok i → i.wellFormed = true → s.busy = false → s.script = .write s.base 4 w :: script →
    s.turns = .host :: .controller :: rest →
    Host.Core.run Sys2Proof.core 2 s =
      exec i { s with
        script := script, turns := rest, pending := some i
        status := { s.status with state := .busy, rej := false, err := .none, op := some i } }

/-- R84 and log 9: a command placed by `withFetchWord` is what the very next step executes. -/
def Obligations.PlacedCommandRunsNext : Prop :=
  ∀ (s : State) (i : Instr),
    step (s.withFetchWord 32 (encode i).toNat) =
      exec i { s with
        pending := some i
        status := { s.status with state := .busy, rej := false, err := .none, op := some i } }

/-- R13 and the model's choice of log 2: with no turn fixed in advance, a step is the step of an agent that has one
enabled, or no agent has one enabled and the machine stays as it is. -/
def Obligations.FreeTurnBelongsToAnEnabledAgent : Prop :=
  ∀ s t : State, s.turns = [] → step s = .next t →
    (t = s ∧ ∀ a, turnEnabled s a = false) ∨
    (∃ a, turnEnabled s a = true ∧ takeTurn a { s with choices := s.choices + 1 } = .next t)

/-- R257, R230: outside BUSY, with a silent host and no turn left, no agent has a step and nothing changes. -/
def Obligations.QuiescentMachineStays : Prop :=
  ∀ s : State, ControlOk s → s.status.state ≠ .busy → s.script = [] → s.turns = [] →
    step s = .next s ∧ ∀ a, turnEnabled s a = false

/-! ### Command acceptance -/

/-- R84, R65, R211, R216, R219: a write to `CMD`. While BUSY it is dropped and only `REJ` is set; otherwise a command
word becomes pending and any other word raises ILLEGAL_CMD; nothing else changes. -/
def Obligations.CommandWriteIsAcceptedDroppedOrRefused : Prop :=
  ∀ (s : State) (v : Word),
    (s.status.state = .busy →
      busWrite s s.base 4 v = .ok { s with status := { s.status with rej := true } }) ∧
    (s.status.state ≠ .busy → ∀ i : Instr, v = encode i →
      busWrite s s.base 4 v = .ok { s with
        pending := some i
        status := { s.status with state := .busy, rej := false, err := .none, op := some i } }) ∧
    (s.status.state ≠ .busy → (∀ i : Instr, v ≠ encode i) →
      busWrite s s.base 4 v = .ok { s with
        pending := none
        status := { s.status with state := .error, rej := false, err := .illegalCmd, op := none } })

/-! ### PREPARE, HASH, TEST -/

/-- R125 to R127: the derivation of the predicate from a header's word 18, whose low byte is the exponent. -/
def Obligations.PredicateFollowsTheExponent : Prop :=
  ∀ w : Word,
    (1 ≤ w.toNat % 256 ∧ w.toNat % 256 ≤ 32 →
      ∃ p, predicateOf w = some p ∧ p.offset.val = 7 - (32 - w.toNat % 256) / 4 ∧
        p.mask.toNat = 2 ^ (8 * ((32 - w.toNat % 256) % 4)) - 1) ∧
    (w.toNat % 256 = 0 ∨ 32 < w.toNat % 256 → predicateOf w = none)

/-- R160: PREPARE with the exponent in the domain fills all of `JOB` from the header and ends IDLE; nothing else
changes. -/
def Obligations.PrepareFillsTheJobWindow : Prop :=
  ∀ s : State, s.inDomain →
    ∃ job, exec .prepare s = .next { s with
        pending := none, job := job, status := { s.status with state := .idle } } ∧
      HashesHeader s job ∧ HoldsPredicate s job

/-- R160, R213, R214: PREPARE with the exponent outside the domain raises PRED_RANGE; `JOB[0..10]` hold the new tail
words and midstate and `JOB[11..12]` are 0; nothing else changes. -/
def Obligations.PrepareOutsideDomainRaisesPredRange : Prop :=
  ∀ s : State, ¬ s.inDomain →
    ∃ job, exec .prepare s = .next { s with
        pending := none, job := job, status := { s.status with state := .error, err := .predRange } } ∧
      HashesHeader s job ∧ job[11] = 0 ∧ job[12] = 0

/-- R161: HASH writes `JOB[0..10]` and, for the nonce `START_NONCE`, `DIGEST`, whatever the exponent; nothing else
changes. -/
def Obligations.HashWritesTheDigest : Prop :=
  ∀ s : State,
    ∃ job, exec .hash s = .next { s with
        pending := none, job := job
        digest := doubleHash (computeMidstate s.hdr) (headerTail s.hdr) s.startNonce
        status := { s.status with state := .idle } } ∧
      HashesHeader s job ∧ job[11] = s.job[11] ∧ job[12] = s.job[12]

/-- R155, R156: the digest HASH leaves is SHA-256 applied twice to the 80 bytes of the header with the nonce in it, least
significant byte first. The byte-level `sha256` is the model's reference function of log 20 (PRESUMED). -/
def Obligations.HashIsDoubleSha256OfTheHeaderBytes : Prop :=
  ∀ s : State, ∃ t, exec .hash s = .next t ∧
    wordsBytes t.digest.toList = sha256 (sha256 (headerBytes s.hdr s.startNonce))

/-- R157: the double hash of a header with the nonce of its own word 19 is SHA-256 applied twice to its 20 words as
stored. The byte-level `sha256` (R155, R156) is the model's reference function of log 20 (PRESUMED). -/
def Obligations.StoredNonceHashesTheHeaderAsStored : Prop :=
  ∀ hdr : Vector Word 20,
    wordsBytes (doubleHash (computeMidstate hdr) (headerTail hdr) (headerNonce hdr)).toList =
      sha256 (sha256 (wordsBytes hdr.toList))

/-- R130, R132: TEST with the exponent in the domain writes the predicate words and sets `PRED_HIT` exactly when the
`32 - exp` most significant bytes of `DIGEST` are all zero; nothing else changes. -/
def Obligations.TestChecksTheLeadingBytes : Prop :=
  ∀ s : State, s.inDomain →
    ∃ job hit, exec .test s = .next { s with
        pending := none, job := job, status := { s.status with state := .idle, predHit := hit } } ∧
      HoldsPredicate s job ∧ (∀ j : Fin 13, j.val < 11 → job[j] = s.job[j]) ∧
      (hit = true ↔ ∀ b ∈ (significantBytes s.digest).take (32 - s.exponent), b = 0)

/-- R132, R213, R214: TEST with the exponent outside the domain raises PRED_RANGE, clears `PRED_HIT` and `JOB[11..12]`;
nothing else changes. -/
def Obligations.TestOutsideDomainRaisesPredRange : Prop :=
  ∀ s : State, ¬ s.inDomain →
    ∃ job, exec .test s = .next { s with
        pending := none, job := job
        status := { s.status with state := .error, err := .predRange, predHit := false } } ∧
      (∀ j : Fin 13, j.val < 11 → job[j] = s.job[j]) ∧ job[11] = 0 ∧ job[12] = 0

/-! ### SEARCH -/

/-- R178, R179: SEARCH with a legal lane count and the exponent in the domain derives `JOB`, clears the result cell and
every counter, starts lane `i` at offset `i` for `i < c` and leaves the others IDLE; nothing else changes. That every lane keeps
its scratch at a launch is the model's choice of log 19 (DEDUCED). -/
def Obligations.SearchLaunchesTheLanes : Prop :=
  ∀ s : State, 1 ≤ s.concurrency.toNat → s.concurrency.toNat ≤ s.numWorkers → s.inDomain →
    ∃ job lanes, exec .search s = .next { s with
        pending := none, job := job, lanes := lanes, resultNonce := 0, searching := true
        status := { s.status with resultValid := false } } ∧
      HashesHeader s job ∧ HoldsPredicate s job ∧ lanes.length = s.lanes.length ∧
      ∀ (i : Nat) (l : Lane), s.lanes[i]? = some l →
        ∃ l', lanes[i]? = some l' ∧ l'.hashCount = 0 ∧ l'.scratch = l.scratch ∧
          (i < s.concurrency.toNat → l'.phase = .run ∧ l'.k.toNat = i) ∧
          (s.concurrency.toNat ≤ i → l'.phase = .idle ∧ l'.k = 0)

/-- R177, R212, R218: SEARCH with `CONCURRENCY` 0 or above `NUM_WORKERS` raises BAD_CONCURRENCY, whatever the exponent,
and changes nothing else. -/
def Obligations.SearchWithBadLaneCountRaisesBadConcurrency : Prop :=
  ∀ s : State, s.concurrency.toNat = 0 ∨ s.numWorkers < s.concurrency.toNat →
    exec .search s = .next { s with
      pending := none, status := { s.status with state := .error, err := .badConcurrency } }

/-- R178, R213: SEARCH with a legal lane count and the exponent outside the domain raises PRED_RANGE; `JOB[0..10]` are
new, `JOB[11..12]` are 0, and the result cell, the counters and the lanes stay as the previous search left them. -/
def Obligations.SearchOutsideDomainRaisesPredRange : Prop :=
  ∀ s : State, 1 ≤ s.concurrency.toNat → s.concurrency.toNat ≤ s.numWorkers → ¬ s.inDomain →
    ∃ job, exec .search s = .next { s with
        pending := none, job := job, status := { s.status with state := .error, err := .predRange } } ∧
      HashesHeader s job ∧ job[11] = 0 ∧ job[12] = 0

/-- R215: an error keeps the result cell, the counters and lanes, `DIGEST`, `HDR`, `START_NONCE` and `CONCURRENCY`, and
`PRED_HIT` unless the command is TEST, which clears it: for an error of a command's execution and for one at acceptance. -/
def Obligations.ErrorKeepsTheEarlierResult : Prop :=
  (∀ (i : Instr) (s t : State), s.status.state = .busy → exec i s = .next t → t.status.state = .error →
    t.status.resultValid = s.status.resultValid ∧ t.resultNonce = s.resultNonce ∧ t.lanes = s.lanes ∧
    t.digest = s.digest ∧ t.hdr = s.hdr ∧ t.startNonce = s.startNonce ∧ t.concurrency = s.concurrency ∧
    (i ≠ .test → t.status.predHit = s.status.predHit) ∧ (i = .test → t.status.predHit = false)) ∧
  (∀ (s t : State) (v : Word), busWrite s s.base 4 v = .ok t → t.status.state = .error →
    t.status.resultValid = s.status.resultValid ∧ t.resultNonce = s.resultNonce ∧ t.lanes = s.lanes ∧
    t.digest = s.digest ∧ t.hdr = s.hdr ∧ t.startNonce = s.startNonce ∧ t.concurrency = s.concurrency ∧
    t.status.predHit = s.status.predHit)

/-- R157, R85: no command reads `HDR[19]`: with another word there, each does the same. -/
def Obligations.NoCommandReadsTheHeaderNonce : Prop :=
  ∀ (i : Instr) (s : State) (w : Word), ∃ t,
    exec i s = .next t ∧
    exec i { s with hdr := s.hdr.set 19 w } = .next { t with hdr := t.hdr.set 19 w }

/-! ### Lanes -/

/-- R181: the begin step of a lane in RUN, exhaustion checked first. -/
def Obligations.LaneBeginChecksItsStopConditions : Prop :=
  ∀ (s : State) (i : Nat) (l : Lane), s.lanes[i]? = some l → l.phase = .run →
    ∃ p, takeTurn (.lane i) s = .next { s with lanes := s.lanes.set i { l with phase := p } } ∧
      (2 ^ 32 ≤ l.k.toNat → p = .exh) ∧
      (l.k.toNat < 2 ^ 32 → s.status.resultValid = true → p = .found) ∧
      (l.k.toNat < 2 ^ 32 → s.status.resultValid = false → p = .pend)

/-- R182, R183, R185: the complete step of a lane in PEND. The trial is counted; a hit stops the lane and is published
if no result exists, a miss advances `k` by `CONCURRENCY`. Only the lane and, on a first hit, the result cell change. -/
def Obligations.LaneTrialCountsAndPublishes : Prop :=
  ∀ (s : State) (i : Nat) (l : Lane), s.lanes[i]? = some l → l.phase = .pend → l.k.toNat < 2 ^ 32 →
    ∃ t l', takeTurn (.lane i) s = .next t ∧ t.lanes = s.lanes.set i l' ∧ l'.hashCount = l.hashCount + 1 ∧
      (s.hitAt l.k.toNat = true →
        l'.phase = .found ∧ l'.k = l.k ∧
        (s.status.resultValid = false → t = { s with
          lanes := s.lanes.set i l', resultNonce := s.startNonce + BitVec.ofNat 32 l.k.toNat
          status := { s.status with resultValid := true } }) ∧
        (s.status.resultValid = true → t = { s with lanes := s.lanes.set i l' })) ∧
      (s.hitAt l.k.toNat = false →
        l'.phase = .run ∧ l'.k.toNat = (l.k.toNat + s.concurrency.toNat) % 2 ^ 33 ∧
        t = { s with lanes := s.lanes.set i l' })

/-- R179: a lane in IDLE, FOUND or EXH has no step, nor has a lane that does not exist (log 8). -/
def Obligations.StoppedLaneTakesNoStep : Prop :=
  ∀ (s : State) (i : Nat), (∀ l, s.lanes[i]? = some l → l.phase ≠ .run ∧ l.phase ≠ .pend) →
    takeTurn (.lane i) s = .next s

/-- R173: for every start nonce, every 32-bit nonce is the trial nonce of exactly one offset below 2^32. -/
def Obligations.EveryNonceHasExactlyOneOffset : Prop :=
  ∀ (start n : Word), ∃ k : BitVec 33, k.toNat < 2 ^ 32 ∧ trialNonce start k = n ∧
    ∀ k' : BitVec 33, k'.toNat < 2 ^ 32 → trialNonce start k' = n → k' = k

/-- R186: with a search running, every lane stopped and no command pending, the controller's turn ends the search,
FOUND or EXHAUSTED by `RESULT_VALID`. While a lane is in RUN or PEND the finish step is not enabled; that the controller's
turn then changes nothing is the model's choice of log 8 (DEDUCED). -/
def Obligations.SearchFinishesWhenEveryLaneHasStopped : Prop :=
  ∀ s : State, s.pending = none → s.searching = true →
    ((∀ l ∈ s.lanes, l.phase ≠ .run ∧ l.phase ≠ .pend) →
      takeTurn .controller s = .next { s with
        searching := false
        status := { s.status with state := if s.status.resultValid = true then .found else .exhausted } }) ∧
    ((∃ l ∈ s.lanes, l.phase = .run ∨ l.phase = .pend) → takeTurn .controller s = .next s)

/-- R184, R253: once a result exists, a lane's completed trials together with the trial it has begun never grow in a
step that is neither a launch nor a reset: each lane completes at most the trial it had begun. -/
def Obligations.DrainCompletesAtMostOneTrialPerLane : Prop :=
  ∀ (s t : State) (i : Nat) (l l' : Lane), s.status.resultValid = true → s.pending ≠ some .search →
    s.turns.head? ≠ some .reset → s.lanes[i]? = some l → t.lanes[i]? = some l' → step s = .next t →
    (l' = l ∨ (l.phase = .run ∧ (l'.phase = .found ∨ l'.phase = .exh) ∧ l'.hashCount = l.hashCount) ∨
      (l.phase = .pend ∧ l'.phase ≠ .pend ∧ l'.hashCount = l.hashCount + 1))

/-- R24, R183: while `RESULT_VALID` is 1, neither it nor `RESULT_NONCE` changes but by a SEARCH or a reset. -/
def Obligations.ResultIsWrittenOnce : Prop :=
  ∀ s t : State, s.status.resultValid = true → s.pending ≠ some .search → s.turns.head? ≠ some .reset →
    step s = .next t → t.status.resultValid = true ∧ t.resultNonce = s.resultNonce

/-- R176, R200: a lane changes only by its own step, by a launch or by a reset: with another lane's turn, the host's or
a command other than SEARCH it keeps its phase, offset, counter and scratch. -/
def Obligations.LaneStateIsPrivate : Prop :=
  ∀ (a : Turn) (s t : State) (i : Nat), a ≠ .lane i → a ≠ .reset → (a = .controller → s.pending ≠ some .search) →
    takeTurn a s = .next t → t.lanes[i]? = s.lanes[i]? ∧ t.lanes.length = s.lanes.length

/-! ### The register window -/

/-- R61, R62, R224 and log 7: an access is legal exactly when it is 4 bytes wide, aligned on 4 and in the window; an
access in the window that is not is a bus error; an address outside the window faults by a name of its own. -/
def Obligations.OnlyAlignedWordAccessesSucceed : Prop :=
  ∀ (s : State) (addr n : Nat) (v : Word),
    (s.base ≤ addr → addr < s.base + 0x400 → n = 4 → (addr - s.base) % 4 = 0 →
      (∃ x, busRead s addr n = .ok x) ∧ ∃ t, busWrite s addr n v = .ok t) ∧
    (s.base ≤ addr → addr < s.base + 0x400 → n ≠ 4 ∨ (addr - s.base) % 4 ≠ 0 →
      busRead s addr n = .error .busError ∧ busWrite s addr n v = .error .busError) ∧
    (addr < s.base ∨ s.base + 0x400 ≤ addr →
      busRead s addr n = .error .outsideWindow ∧ busWrite s addr n v = .error .outsideWindow)

/-- R63: a read changes no register; only the script and the value read move. -/
def Obligations.ReadsHaveNoSideEffect : Prop :=
  ∀ (s : State) (addr n : Nat) (v : Word) (script : List HostStmt) (rest : List Turn),
    s.script = .read addr n :: script → s.turns = .host :: rest → busRead s addr n = .ok v →
    step s = .next { s with script := script, turns := rest, lastRead := some v }

/-- R87: the host's turn on `WAIT` reads `STATUS`; it stays in the script while BUSY and ends otherwise. -/
def Obligations.WaitPollsUntilNotBusy : Prop :=
  ∀ (s : State) (script : List HostStmt) (rest : List Turn), s.script = .wait :: script → s.turns = .host :: rest →
    (s.status.state = .busy →
      step s = .next { s with turns := rest, lastRead := some (readReg s .status) }) ∧
    (s.status.state ≠ .busy →
      step s = .next { s with script := script, turns := rest, lastRead := some (readReg s .status) })

/-- R64, R29, R30, R36, R37: a data register written while not BUSY reads back as written, and every other register
reads as before. -/
def Obligations.DataRegisterReadsBackAsWritten : Prop :=
  ∀ (s : State) (r : RegName) (v : Word), isDataReg r = true → s.status.state ≠ .busy →
    ∃ t, busWrite s (s.base + offsetOf r) 4 v = .ok t ∧ busRead t (s.base + offsetOf r) 4 = .ok v ∧
      (∀ r', r' ≠ r → readReg t r' = readReg s r') ∧
      t = { s with startNonce := t.startNonce, concurrency := t.concurrency, hdr := t.hdr, digest := t.digest }

/-- R64, R219, R246: a write to a data register while BUSY is dropped: only `REJ` is set. -/
def Obligations.DataWriteWhileBusyIsDropped : Prop :=
  ∀ (s : State) (r : RegName) (v : Word), isDataReg r = true → s.status.state = .busy →
    busWrite s (s.base + offsetOf r) 4 v = .ok { s with status := { s.status with rej := true } }

/-- R66: a write to a read-only register or at a reserved offset changes nothing; a reserved offset and the counter
places of lanes that do not exist read 0, and so does `CMD` (R21). -/
def Obligations.ReservedAndReadOnlyOffsets : Prop :=
  (∀ (s : State) (r : RegName) (v : Word), isReadOnlyReg r = true → busWrite s (s.base + offsetOf r) 4 v = .ok s) ∧
  (∀ (s : State) (off : Nat) (v : Word),
    (0x028 ≤ off ∧ off < 0x040) ∨ (0x090 ≤ off ∧ off < 0x0A0) ∨ (0x0F4 ≤ off ∧ off < 0x100) ∨
      (0x100 + 8 * s.numWorkers ≤ off ∧ off < 0x400) →
    off % 4 = 0 →
    busRead s (s.base + off) 4 = .ok 0 ∧ busWrite s (s.base + off) 4 v = .ok s) ∧
  (∀ s : State, busRead s s.base 4 = .ok 0)

/-- R22 to R28: the fields of the word a read of `STATUS` returns, with the numbers of their values. -/
def Obligations.StatusWordHasItsFields : Prop :=
  ∀ s : State,
    ((readReg s .status).extractLsb' 0 3).toNat = (match s.status.state with
      | .idle => 0 | .busy => 1 | .found => 2 | .exhausted => 3 | .error => 4) ∧
    (readReg s .status).getLsbD 3 = s.status.resultValid ∧
    (readReg s .status).getLsbD 4 = s.status.predHit ∧
    (readReg s .status).getLsbD 5 = s.status.rej ∧
    (readReg s .status).extractLsb' 6 2 = 0 ∧
    ((readReg s .status).extractLsb' 8 4).toNat = (match s.status.err with
      | .none => 0 | .illegalCmd => 1 | .badConcurrency => 2 | .predRange => 3) ∧
    ((readReg s .status).extractLsb' 12 4).toNat = (match s.status.op with
      | none => 0 | some .prepare => 1 | some .hash => 2 | some .test => 3 | some .search => 4) ∧
    (readReg s .status).extractLsb' 16 16 = 0

/-- R34, R35: the bits of the lane masks. -/
def Obligations.LaneMasksShowThePhases : Prop :=
  ∀ (s : State) (i : Nat), s.numWorkers ≤ 32 →
    ((readReg s .laneActive).getLsbD i = true ↔
      ∃ l, s.lanes[i]? = some l ∧ (l.phase = .run ∨ l.phase = .pend)) ∧
    ((readReg s .laneExhausted).getLsbD i = true ↔ ∃ l, s.lanes[i]? = some l ∧ l.phase = .exh)

/-- R32, R33, R39: the two halves of each lane counter, the two halves of the sum of all counters modulo 2^64, and the
lane count. -/
def Obligations.CountersReadInHalves : Prop :=
  ∀ s : State, s.numWorkers ≤ 32 →
    (∀ (i : Fin 32) (l : Lane), s.lanes[i.val]? = some l →
      (readReg s (.laneHcHi i)).toNat * 2 ^ 32 + (readReg s (.laneHcLo i)).toNat = l.hashCount.toNat) ∧
    (readReg s .totalHashesHi).toNat * 2 ^ 32 + (readReg s .totalHashesLo).toNat =
      (s.lanes.map (fun l => l.hashCount.toNat)).sum % 2 ^ 64 ∧
    (readReg s .numWorkers).toNat = s.numWorkers

/-- R108, R87: `LOADHDR` from a state that is not BUSY, twenty host turns, leaves the parsed words in `HDR` and changes
nothing else. -/
def Obligations.LoadHeaderFillsTheHeaderRegisters : Prop :=
  ∀ (s : State) (text : List Char) (words : List Word) (stmts script : List HostStmt) (rest : List Turn),
    s.status.state ≠ .busy → parseHeader text = .ok words → stmtsLoadHdr s.base text = .ok stmts →
    s.script = stmts ++ script → s.turns = List.replicate 20 .host ++ rest →
    ∃ hdr : Vector Word 20, hdr.toList = words ∧
      Host.Core.run Sys2Proof.core 20 s = .next { s with hdr := hdr, script := script, turns := rest }

/-! ### Header text (host side) -/

/-- R105: the two round trips of the codec; the second lowers the case of letters. -/
def Obligations.ParseAndPrintRoundTrip : Prop :=
  (∀ ws : List Word, parseHex (printWords ws) = .ok ws) ∧
  (∀ (h : List Char) (ws : List Word), parseHex h = .ok ws → printWords ws = h.map Char.toLower)

/-- R106: pair `p` of the result is pair `P - 1 - p` of the text, for `P` the number of pairs, the order within a pair
kept; so reversal twice gives the text back. It fails exactly on an odd length. -/
def Obligations.ReversingByteOrderTwiceIsIdentity : Prop :=
  (∀ h r : List Char, reverseByteOrder h = .ok r → r.length = h.length ∧
    (∀ p, p < h.length / 2 →
      r[2 * p]? = h[2 * (h.length / 2 - 1 - p)]? ∧ r[2 * p + 1]? = h[2 * (h.length / 2 - 1 - p) + 1]?) ∧
    reverseByteOrder r = .ok h) ∧
  (∀ h : List Char, reverseByteOrder h = .error .invalidInput ↔ h.length % 2 = 1)

/-! ### Reset -/

/-- R240, R241, R48: the reset input. Every register but the hardwired `NUM_WORKERS` reads 0, no command is pending, no
search runs, every lane is IDLE at offset 0 with its counter 0, and no agent but the host has a step. -/
def Obligations.ResetInputClearsTheBlock : Prop :=
  ∀ (s : State) (rest : List Turn), s.turns = .reset :: rest →
    ∃ t, step s = .next t ∧
      (∀ r, r ≠ .numWorkers → readReg t r = 0) ∧ readReg t .numWorkers = readReg s .numWorkers ∧
      t.pending = none ∧ t.searching = false ∧ t.base = s.base ∧ t.lanes.length = s.lanes.length ∧
      (∀ l ∈ t.lanes, l.phase = .idle ∧ l.k = 0 ∧ l.hashCount = 0) ∧
      (∀ a, a ≠ .host → turnEnabled t a = false)

/-- R48, R241, with the parameters that log 3 chooses: the machine right after reset reads 0 at every register but
`NUM_WORKERS`, has nothing pending or running, and satisfies the invariants. -/
def Obligations.ResetStateSatisfiesTheInvariants : Prop :=
  (∀ r, r ≠ .numWorkers → readReg State.reset r = 0) ∧ State.reset.pending = none ∧
  ControlOk State.reset ∧ State.reset.searching = false ∧ OutcomeOk State.reset

/-! ### Invariants of every step -/

/-- R23, R27, R28, R31, R38, R41: what holds of control and status is kept by every step of every agent. -/
def Obligations.StepKeepsControlOk : Prop :=
  ∀ s t : State, ControlOk s → step s = .next t → ControlOk t

/-- R171, R177, R179 to R185, R200: what holds of a running search is kept by every step; a launch establishes it. -/
def Obligations.StepKeepsSearchOk : Prop :=
  ∀ s t : State, ControlOk s → (s.searching = true → SearchOk s) → step s = .next t →
    (t.searching = true → SearchOk t)

/-- R187, R189: FOUND only with a nonce that passes the predicate, EXHAUSTED only when no nonce passes and after 2^32
trials; kept by every step of every agent. -/
def Obligations.StepKeepsOutcomeOk : Prop :=
  ∀ s t : State, ControlOk s → (s.searching = true → SearchOk s) → OutcomeOk s → step s = .next t → OutcomeOk t

/-- R49, R76: while BUSY no host access changes `HDR`, `START_NONCE`, `CONCURRENCY` or `DIGEST`, and while a search runs
no step but a reset changes them or `JOB`. -/
def Obligations.SearchOperandsAreImmutable : Prop :=
  (∀ s t : State, s.status.state = .busy → takeTurn .host s = .next t →
    t.hdr = s.hdr ∧ t.startNonce = s.startNonce ∧ t.concurrency = s.concurrency ∧ t.digest = s.digest) ∧
  (∀ s t : State, ControlOk s → s.searching = true → s.turns.head? ≠ some .reset → step s = .next t →
    t.hdr = s.hdr ∧ t.startNonce = s.startNonce ∧ t.concurrency = s.concurrency ∧ t.digest = s.digest ∧ t.job = s.job)

/-- R38, R250: `JOB` changes only when a command is executed, or by a reset. -/
def Obligations.JobChangesOnlyByCommands : Prop :=
  ∀ s t : State, s.pending = none → s.turns.head? ≠ some .reset → step s = .next t → t.job = s.job

/-- R25: `PRED_HIT` is written only by TEST and by reset. -/
def Obligations.OnlyTestWritesPredHit : Prop :=
  ∀ s t : State, s.pending ≠ some .test → s.turns.head? ≠ some .reset → step s = .next t →
    t.status.predHit = s.status.predHit

/-- R26: `REJ` is cleared only by the acceptance of a command while not BUSY and by reset, and it is set only by a host
write to `CMD` or to a host-writable data register while BUSY. -/
def Obligations.RejIsStickyUntilACommandIsAccepted : Prop :=
  ∀ s t : State, s.turns.head? ≠ some .reset → step s = .next t →
    (s.status.rej = true → t.status.rej = false →
      s.status.state ≠ .busy ∧ ∃ v script, s.script = .write s.base 4 v :: script) ∧
    (s.status.rej = false → t.status.rej = true → s.status.state = .busy ∧
      ∃ r v script, (r = .cmd ∨ isDataReg r = true) ∧ s.script = .write (s.base + offsetOf r) 4 v :: script)

/-! ### Searches as a whole -/

/-- R190, with the free choice of log 2, which by log 16 holds no reset: from every legal BUSY state with a silent host, whatever order the free choice
gives the agents, BUSY ends within `2^33 + 34` steps. -/
def Obligations.SearchEndsWithinItsStepBound : Prop :=
  ∀ s : State, ControlOk s → (s.searching = true → SearchOk s) → s.script = [] → s.turns = [] →
    ∃ n t, n ≤ 2 ^ 33 + 34 ∧ Host.Core.run Sys2Proof.core n s = .next t ∧ t.status.state ≠ .busy

/-- R190, R256: under every schedule that is weakly fair to the controller and the lanes and holds no reset, with a host
that only waits, every command and every search ends. -/
def Obligations.SearchEndsUnderWeakFairness : Prop :=
  ∀ (s : State) (σ : Nat → Turn), ControlOk s → (s.searching = true → SearchOk s) →
    (∀ x ∈ s.script, x = .wait) → (∀ n, σ n ≠ .reset) → WeaklyFair σ s →
    ∃ n t, runUnder σ s n = some t ∧ t.status.state ≠ .busy

/-- R188: every first hit of a lane's share is the result of some interleaving of a launched search. -/
def Obligations.EveryFirstHitCanBeReported : Prop :=
  ∀ (s t : State) (k : Nat), ControlOk s → s.status.state = .busy → 1 ≤ s.concurrency.toNat →
    s.concurrency.toNat ≤ s.numWorkers → s.inDomain → exec .search s = .next t → t.firstHitOfShare k →
    ∃ turns u, Host.Core.run Sys2Proof.core turns.length { t with turns := turns } = .next u ∧
      u.status.state = .found ∧ u.resultNonce = s.startNonce + BitVec.ofNat 32 k

/-- R188, R186: the result of a search that ends FOUND is the nonce of a first hit of some lane's share. -/
def Obligations.ReportedNonceIsAFirstHit : Prop :=
  ∀ s t : State, ControlOk s → SearchOk s → s.searching = true → s.turns.head? ≠ some .reset → step s = .next t →
    t.status.state = .found → ∃ k, s.firstHitOfShare k ∧ t.resultNonce = s.startNonce + BitVec.ofNat 32 k

/-- R194: a search with one lane that ends FOUND reports the smallest hit offset `k`, after `k + 1` trials; one that
ends EXHAUSTED has no hit, after `2^32` trials. -/
def Obligations.OneLaneSearchReportsTheSmallestHit : Prop :=
  ∀ s t : State, ControlOk s → SearchOk s → s.searching = true → s.concurrency.toNat = 1 →
    s.turns.head? ≠ some .reset → step s = .next t →
    (t.status.state = .found →
      ∃ k l, k < 2 ^ 32 ∧ s.hitAt k = true ∧ (∀ k', k' < k → s.hitAt k' = false) ∧
        t.resultNonce = s.startNonce + BitVec.ofNat 32 k ∧ t.lanes[0]? = some l ∧ l.hashCount.toNat = k + 1) ∧
    (t.status.state = .exhausted →
      (∀ k, k < 2 ^ 32 → s.hitAt k = false) ∧ ∃ l, t.lanes[0]? = some l ∧ l.hashCount.toNat = 2 ^ 32)

/-- R195: under the lockstep interleaving a search reports its smallest hit offset `k`: the hit of the earliest round,
and in it of the lowest lane. A round names every lane twice; that the turn of a lane with no step changes nothing is
the model's choice of log 8 (DEDUCED). -/
def Obligations.LockstepSearchReportsTheSmallestHit : Prop :=
  ∀ (s t : State) (k : Nat), ControlOk s → s.status.state = .busy → 1 ≤ s.concurrency.toNat →
    s.concurrency.toNat ≤ s.numWorkers → s.inDomain → exec .search s = .next t →
    k < 2 ^ 32 → t.hitAt k = true → (∀ k', k' < k → t.hitAt k' = false) →
    let turns := lockstepRounds s.concurrency.toNat (k / s.concurrency.toNat + 2) ++ [.controller]
    ∃ u, Host.Core.run Sys2Proof.core turns.length { t with turns := turns } = .next u ∧
      u.status.state = .found ∧ u.resultNonce = s.startNonce + BitVec.ofNat 32 k

/-- R182, R187, R189: what a hit is in terms of the header. With the job window derived from the header, the trial of a
nonce hits exactly when the `32 - exp` most significant bytes of the header's double hash are all zero; so a search that
ends FOUND reports such a nonce, and one that ends EXHAUSTED has shown that there is none. -/
def Obligations.HitsAreNoncesThatPassTheHeader : Prop :=
  (∀ (s : State) (n : Word), s.jobOfHeader → (s.hits n = true ↔ s.headerPasses n)) ∧
  (∀ s t : State, ControlOk s → SearchOk s → s.jobOfHeader → s.searching = true → s.turns.head? ≠ some .reset →
    step s = .next t →
    (t.status.state = .found → t.headerPasses t.resultNonce) ∧
    (t.status.state = .exhausted → ∀ n, ¬ t.headerPasses n))

/-- R49, R178: while a search runs, the job window is the one derived from the header in `HDR`; every step keeps this
and a launch establishes it. -/
def Obligations.StepKeepsJobOfHeader : Prop :=
  ∀ s t : State, ControlOk s → (s.searching = true → s.jobOfHeader) → step s = .next t →
    (t.searching = true → t.jobOfHeader)

/-- R189, R173: a search ends EXHAUSTED exactly when no offset below `2^32` is a hit. Every lane `i < c` is then in EXH
after `ceil((2^32 - i) / c)` trials, and `TOTAL_HASHES` reads `2^32`. -/
def Obligations.ExhaustedSearchTriedEveryNonce : Prop :=
  ∀ s t : State, ControlOk s → SearchOk s → s.searching = true → s.turns.head? ≠ some .reset → step s = .next t →
    t.searching = false →
    (t.status.state = .exhausted ↔ ∀ k, k < 2 ^ 32 → s.hitAt k = false) ∧
    (t.status.state = .exhausted →
      (∀ (i : Nat) (l : Lane), t.lanes[i]? = some l → i < s.laneCount →
        l.phase = .exh ∧ l.hashCount.toNat = (2 ^ 32 - i + (s.laneCount - 1)) / s.laneCount) ∧
      readReg t .totalHashesHi = 1 ∧ readReg t .totalHashesLo = 0)
end

