-- ==== Sys2Proof/Laws/State.lean ====
section
/-! SUPPORT. One lemma per field per update of the state, so that no later proof unfolds a record update. -/

namespace Sys2Proof.Machine

/-! `setEngine` -/

@[simp] theorem setEngine_status_state (s : State) (e : EngineState) : (s.setEngine e).status.state = e := rfl
@[simp] theorem setEngine_status_resultValid (s : State) (e : EngineState) : (s.setEngine e).status.resultValid = s.status.resultValid := rfl
@[simp] theorem setEngine_status_predHit (s : State) (e : EngineState) : (s.setEngine e).status.predHit = s.status.predHit := rfl
@[simp] theorem setEngine_status_rej (s : State) (e : EngineState) : (s.setEngine e).status.rej = s.status.rej := rfl
@[simp] theorem setEngine_status_err (s : State) (e : EngineState) : (s.setEngine e).status.err = s.status.err := rfl
@[simp] theorem setEngine_status_op (s : State) (e : EngineState) : (s.setEngine e).status.op = s.status.op := rfl
@[simp] theorem setEngine_startNonce (s : State) (e : EngineState) : (s.setEngine e).startNonce = s.startNonce := rfl
@[simp] theorem setEngine_concurrency (s : State) (e : EngineState) : (s.setEngine e).concurrency = s.concurrency := rfl
@[simp] theorem setEngine_resultNonce (s : State) (e : EngineState) : (s.setEngine e).resultNonce = s.resultNonce := rfl
@[simp] theorem setEngine_hdr (s : State) (e : EngineState) : (s.setEngine e).hdr = s.hdr := rfl
@[simp] theorem setEngine_digest (s : State) (e : EngineState) : (s.setEngine e).digest = s.digest := rfl
@[simp] theorem setEngine_job (s : State) (e : EngineState) : (s.setEngine e).job = s.job := rfl
@[simp] theorem setEngine_pending (s : State) (e : EngineState) : (s.setEngine e).pending = s.pending := rfl
@[simp] theorem setEngine_searching (s : State) (e : EngineState) : (s.setEngine e).searching = s.searching := rfl
@[simp] theorem setEngine_lanes (s : State) (e : EngineState) : (s.setEngine e).lanes = s.lanes := rfl
@[simp] theorem setEngine_base (s : State) (e : EngineState) : (s.setEngine e).base = s.base := rfl
@[simp] theorem setEngine_script (s : State) (e : EngineState) : (s.setEngine e).script = s.script := rfl
@[simp] theorem setEngine_turns (s : State) (e : EngineState) : (s.setEngine e).turns = s.turns := rfl
@[simp] theorem setEngine_choices (s : State) (e : EngineState) : (s.setEngine e).choices = s.choices := rfl
@[simp] theorem setEngine_lastRead (s : State) (e : EngineState) : (s.setEngine e).lastRead = s.lastRead := rfl

/-! `clearPending` -/

@[simp] theorem clearPending_status (s : State) : (s.clearPending).status = s.status := rfl
@[simp] theorem clearPending_startNonce (s : State) : (s.clearPending).startNonce = s.startNonce := rfl
@[simp] theorem clearPending_concurrency (s : State) : (s.clearPending).concurrency = s.concurrency := rfl
@[simp] theorem clearPending_resultNonce (s : State) : (s.clearPending).resultNonce = s.resultNonce := rfl
@[simp] theorem clearPending_hdr (s : State) : (s.clearPending).hdr = s.hdr := rfl
@[simp] theorem clearPending_digest (s : State) : (s.clearPending).digest = s.digest := rfl
@[simp] theorem clearPending_job (s : State) : (s.clearPending).job = s.job := rfl
@[simp] theorem clearPending_pending (s : State) : (s.clearPending).pending = none := rfl
@[simp] theorem clearPending_searching (s : State) : (s.clearPending).searching = s.searching := rfl
@[simp] theorem clearPending_lanes (s : State) : (s.clearPending).lanes = s.lanes := rfl
@[simp] theorem clearPending_base (s : State) : (s.clearPending).base = s.base := rfl
@[simp] theorem clearPending_script (s : State) : (s.clearPending).script = s.script := rfl
@[simp] theorem clearPending_turns (s : State) : (s.clearPending).turns = s.turns := rfl
@[simp] theorem clearPending_choices (s : State) : (s.clearPending).choices = s.choices := rfl
@[simp] theorem clearPending_lastRead (s : State) : (s.clearPending).lastRead = s.lastRead := rfl

/-! `raiseError` -/

@[simp] theorem raiseError_status_state (s : State) (c : ErrCode) : (raiseError c s).status.state = .error := rfl
@[simp] theorem raiseError_status_resultValid (s : State) (c : ErrCode) : (raiseError c s).status.resultValid = s.status.resultValid := rfl
@[simp] theorem raiseError_status_predHit (s : State) (c : ErrCode) : (raiseError c s).status.predHit = s.status.predHit := rfl
@[simp] theorem raiseError_status_rej (s : State) (c : ErrCode) : (raiseError c s).status.rej = s.status.rej := rfl
@[simp] theorem raiseError_status_err (s : State) (c : ErrCode) : (raiseError c s).status.err = c := rfl
@[simp] theorem raiseError_status_op (s : State) (c : ErrCode) : (raiseError c s).status.op = s.status.op := rfl
@[simp] theorem raiseError_startNonce (s : State) (c : ErrCode) : (raiseError c s).startNonce = s.startNonce := rfl
@[simp] theorem raiseError_concurrency (s : State) (c : ErrCode) : (raiseError c s).concurrency = s.concurrency := rfl
@[simp] theorem raiseError_resultNonce (s : State) (c : ErrCode) : (raiseError c s).resultNonce = s.resultNonce := rfl
@[simp] theorem raiseError_hdr (s : State) (c : ErrCode) : (raiseError c s).hdr = s.hdr := rfl
@[simp] theorem raiseError_digest (s : State) (c : ErrCode) : (raiseError c s).digest = s.digest := rfl
@[simp] theorem raiseError_job (s : State) (c : ErrCode) : (raiseError c s).job = s.job := rfl
@[simp] theorem raiseError_pending (s : State) (c : ErrCode) : (raiseError c s).pending = none := rfl
@[simp] theorem raiseError_searching (s : State) (c : ErrCode) : (raiseError c s).searching = s.searching := rfl
@[simp] theorem raiseError_lanes (s : State) (c : ErrCode) : (raiseError c s).lanes = s.lanes := rfl
@[simp] theorem raiseError_base (s : State) (c : ErrCode) : (raiseError c s).base = s.base := rfl
@[simp] theorem raiseError_script (s : State) (c : ErrCode) : (raiseError c s).script = s.script := rfl
@[simp] theorem raiseError_turns (s : State) (c : ErrCode) : (raiseError c s).turns = s.turns := rfl
@[simp] theorem raiseError_choices (s : State) (c : ErrCode) : (raiseError c s).choices = s.choices := rfl
@[simp] theorem raiseError_lastRead (s : State) (c : ErrCode) : (raiseError c s).lastRead = s.lastRead := rfl

/-! `acceptLegal` -/

@[simp] theorem acceptLegal_status_state (s : State) (i : Instr) : (acceptLegal i s).status.state = .busy := rfl
@[simp] theorem acceptLegal_status_resultValid (s : State) (i : Instr) : (acceptLegal i s).status.resultValid = s.status.resultValid := rfl
@[simp] theorem acceptLegal_status_predHit (s : State) (i : Instr) : (acceptLegal i s).status.predHit = s.status.predHit := rfl
@[simp] theorem acceptLegal_status_rej (s : State) (i : Instr) : (acceptLegal i s).status.rej = false := rfl
@[simp] theorem acceptLegal_status_err (s : State) (i : Instr) : (acceptLegal i s).status.err = .none := rfl
@[simp] theorem acceptLegal_status_op (s : State) (i : Instr) : (acceptLegal i s).status.op = some i := rfl
@[simp] theorem acceptLegal_startNonce (s : State) (i : Instr) : (acceptLegal i s).startNonce = s.startNonce := rfl
@[simp] theorem acceptLegal_concurrency (s : State) (i : Instr) : (acceptLegal i s).concurrency = s.concurrency := rfl
@[simp] theorem acceptLegal_resultNonce (s : State) (i : Instr) : (acceptLegal i s).resultNonce = s.resultNonce := rfl
@[simp] theorem acceptLegal_hdr (s : State) (i : Instr) : (acceptLegal i s).hdr = s.hdr := rfl
@[simp] theorem acceptLegal_digest (s : State) (i : Instr) : (acceptLegal i s).digest = s.digest := rfl
@[simp] theorem acceptLegal_job (s : State) (i : Instr) : (acceptLegal i s).job = s.job := rfl
@[simp] theorem acceptLegal_pending (s : State) (i : Instr) : (acceptLegal i s).pending = some i := rfl
@[simp] theorem acceptLegal_searching (s : State) (i : Instr) : (acceptLegal i s).searching = s.searching := rfl
@[simp] theorem acceptLegal_lanes (s : State) (i : Instr) : (acceptLegal i s).lanes = s.lanes := rfl
@[simp] theorem acceptLegal_base (s : State) (i : Instr) : (acceptLegal i s).base = s.base := rfl
@[simp] theorem acceptLegal_script (s : State) (i : Instr) : (acceptLegal i s).script = s.script := rfl
@[simp] theorem acceptLegal_turns (s : State) (i : Instr) : (acceptLegal i s).turns = s.turns := rfl
@[simp] theorem acceptLegal_choices (s : State) (i : Instr) : (acceptLegal i s).choices = s.choices := rfl
@[simp] theorem acceptLegal_lastRead (s : State) (i : Instr) : (acceptLegal i s).lastRead = s.lastRead := rfl

/-! `acceptIllegal` -/

@[simp] theorem acceptIllegal_status_state (s : State) : (acceptIllegal s).status.state = .error := rfl
@[simp] theorem acceptIllegal_status_resultValid (s : State) : (acceptIllegal s).status.resultValid = s.status.resultValid := rfl
@[simp] theorem acceptIllegal_status_predHit (s : State) : (acceptIllegal s).status.predHit = s.status.predHit := rfl
@[simp] theorem acceptIllegal_status_rej (s : State) : (acceptIllegal s).status.rej = false := rfl
@[simp] theorem acceptIllegal_status_err (s : State) : (acceptIllegal s).status.err = .illegalCmd := rfl
@[simp] theorem acceptIllegal_status_op (s : State) : (acceptIllegal s).status.op = none := rfl
@[simp] theorem acceptIllegal_startNonce (s : State) : (acceptIllegal s).startNonce = s.startNonce := rfl
@[simp] theorem acceptIllegal_concurrency (s : State) : (acceptIllegal s).concurrency = s.concurrency := rfl
@[simp] theorem acceptIllegal_resultNonce (s : State) : (acceptIllegal s).resultNonce = s.resultNonce := rfl
@[simp] theorem acceptIllegal_hdr (s : State) : (acceptIllegal s).hdr = s.hdr := rfl
@[simp] theorem acceptIllegal_digest (s : State) : (acceptIllegal s).digest = s.digest := rfl
@[simp] theorem acceptIllegal_job (s : State) : (acceptIllegal s).job = s.job := rfl
@[simp] theorem acceptIllegal_pending (s : State) : (acceptIllegal s).pending = none := rfl
@[simp] theorem acceptIllegal_searching (s : State) : (acceptIllegal s).searching = s.searching := rfl
@[simp] theorem acceptIllegal_lanes (s : State) : (acceptIllegal s).lanes = s.lanes := rfl
@[simp] theorem acceptIllegal_base (s : State) : (acceptIllegal s).base = s.base := rfl
@[simp] theorem acceptIllegal_script (s : State) : (acceptIllegal s).script = s.script := rfl
@[simp] theorem acceptIllegal_turns (s : State) : (acceptIllegal s).turns = s.turns := rfl
@[simp] theorem acceptIllegal_choices (s : State) : (acceptIllegal s).choices = s.choices := rfl
@[simp] theorem acceptIllegal_lastRead (s : State) : (acceptIllegal s).lastRead = s.lastRead := rfl

/-! `dropWrite` -/

@[simp] theorem dropWrite_status_state (s : State) : (dropWrite s).status.state = s.status.state := rfl
@[simp] theorem dropWrite_status_resultValid (s : State) : (dropWrite s).status.resultValid = s.status.resultValid := rfl
@[simp] theorem dropWrite_status_predHit (s : State) : (dropWrite s).status.predHit = s.status.predHit := rfl
@[simp] theorem dropWrite_status_rej (s : State) : (dropWrite s).status.rej = true := rfl
@[simp] theorem dropWrite_status_err (s : State) : (dropWrite s).status.err = s.status.err := rfl
@[simp] theorem dropWrite_status_op (s : State) : (dropWrite s).status.op = s.status.op := rfl
@[simp] theorem dropWrite_startNonce (s : State) : (dropWrite s).startNonce = s.startNonce := rfl
@[simp] theorem dropWrite_concurrency (s : State) : (dropWrite s).concurrency = s.concurrency := rfl
@[simp] theorem dropWrite_resultNonce (s : State) : (dropWrite s).resultNonce = s.resultNonce := rfl
@[simp] theorem dropWrite_hdr (s : State) : (dropWrite s).hdr = s.hdr := rfl
@[simp] theorem dropWrite_digest (s : State) : (dropWrite s).digest = s.digest := rfl
@[simp] theorem dropWrite_job (s : State) : (dropWrite s).job = s.job := rfl
@[simp] theorem dropWrite_pending (s : State) : (dropWrite s).pending = s.pending := rfl
@[simp] theorem dropWrite_searching (s : State) : (dropWrite s).searching = s.searching := rfl
@[simp] theorem dropWrite_lanes (s : State) : (dropWrite s).lanes = s.lanes := rfl
@[simp] theorem dropWrite_base (s : State) : (dropWrite s).base = s.base := rfl
@[simp] theorem dropWrite_script (s : State) : (dropWrite s).script = s.script := rfl
@[simp] theorem dropWrite_turns (s : State) : (dropWrite s).turns = s.turns := rfl
@[simp] theorem dropWrite_choices (s : State) : (dropWrite s).choices = s.choices := rfl
@[simp] theorem dropWrite_lastRead (s : State) : (dropWrite s).lastRead = s.lastRead := rfl

/-! `deriveMidstate` -/

@[simp] theorem deriveMidstate_status (s : State) : (deriveMidstate s).status = s.status := rfl
@[simp] theorem deriveMidstate_startNonce (s : State) : (deriveMidstate s).startNonce = s.startNonce := rfl
@[simp] theorem deriveMidstate_concurrency (s : State) : (deriveMidstate s).concurrency = s.concurrency := rfl
@[simp] theorem deriveMidstate_resultNonce (s : State) : (deriveMidstate s).resultNonce = s.resultNonce := rfl
@[simp] theorem deriveMidstate_hdr (s : State) : (deriveMidstate s).hdr = s.hdr := rfl
@[simp] theorem deriveMidstate_digest (s : State) : (deriveMidstate s).digest = s.digest := rfl
@[simp] theorem deriveMidstate_job (s : State) : (deriveMidstate s).job = jobWithMidstate s.job (headerTail s.hdr) (computeMidstate s.hdr) := rfl
@[simp] theorem deriveMidstate_pending (s : State) : (deriveMidstate s).pending = s.pending := rfl
@[simp] theorem deriveMidstate_searching (s : State) : (deriveMidstate s).searching = s.searching := rfl
@[simp] theorem deriveMidstate_lanes (s : State) : (deriveMidstate s).lanes = s.lanes := rfl
@[simp] theorem deriveMidstate_base (s : State) : (deriveMidstate s).base = s.base := rfl
@[simp] theorem deriveMidstate_script (s : State) : (deriveMidstate s).script = s.script := rfl
@[simp] theorem deriveMidstate_turns (s : State) : (deriveMidstate s).turns = s.turns := rfl
@[simp] theorem deriveMidstate_choices (s : State) : (deriveMidstate s).choices = s.choices := rfl
@[simp] theorem deriveMidstate_lastRead (s : State) : (deriveMidstate s).lastRead = s.lastRead := rfl

/-! `setDigest` -/

@[simp] theorem setDigest_status (s : State) (d : Vector Word 8) : (s.setDigest d).status = s.status := rfl
@[simp] theorem setDigest_startNonce (s : State) (d : Vector Word 8) : (s.setDigest d).startNonce = s.startNonce := rfl
@[simp] theorem setDigest_concurrency (s : State) (d : Vector Word 8) : (s.setDigest d).concurrency = s.concurrency := rfl
@[simp] theorem setDigest_resultNonce (s : State) (d : Vector Word 8) : (s.setDigest d).resultNonce = s.resultNonce := rfl
@[simp] theorem setDigest_hdr (s : State) (d : Vector Word 8) : (s.setDigest d).hdr = s.hdr := rfl
@[simp] theorem setDigest_digest (s : State) (d : Vector Word 8) : (s.setDigest d).digest = d := rfl
@[simp] theorem setDigest_job (s : State) (d : Vector Word 8) : (s.setDigest d).job = s.job := rfl
@[simp] theorem setDigest_pending (s : State) (d : Vector Word 8) : (s.setDigest d).pending = s.pending := rfl
@[simp] theorem setDigest_searching (s : State) (d : Vector Word 8) : (s.setDigest d).searching = s.searching := rfl
@[simp] theorem setDigest_lanes (s : State) (d : Vector Word 8) : (s.setDigest d).lanes = s.lanes := rfl
@[simp] theorem setDigest_base (s : State) (d : Vector Word 8) : (s.setDigest d).base = s.base := rfl
@[simp] theorem setDigest_script (s : State) (d : Vector Word 8) : (s.setDigest d).script = s.script := rfl
@[simp] theorem setDigest_turns (s : State) (d : Vector Word 8) : (s.setDigest d).turns = s.turns := rfl
@[simp] theorem setDigest_choices (s : State) (d : Vector Word 8) : (s.setDigest d).choices = s.choices := rfl
@[simp] theorem setDigest_lastRead (s : State) (d : Vector Word 8) : (s.setDigest d).lastRead = s.lastRead := rfl

/-! `setPredHit` -/

@[simp] theorem setPredHit_status_state (s : State) (b : Bool) : (s.setPredHit b).status.state = s.status.state := rfl
@[simp] theorem setPredHit_status_resultValid (s : State) (b : Bool) : (s.setPredHit b).status.resultValid = s.status.resultValid := rfl
@[simp] theorem setPredHit_status_predHit (s : State) (b : Bool) : (s.setPredHit b).status.predHit = b := rfl
@[simp] theorem setPredHit_status_rej (s : State) (b : Bool) : (s.setPredHit b).status.rej = s.status.rej := rfl
@[simp] theorem setPredHit_status_err (s : State) (b : Bool) : (s.setPredHit b).status.err = s.status.err := rfl
@[simp] theorem setPredHit_status_op (s : State) (b : Bool) : (s.setPredHit b).status.op = s.status.op := rfl
@[simp] theorem setPredHit_startNonce (s : State) (b : Bool) : (s.setPredHit b).startNonce = s.startNonce := rfl
@[simp] theorem setPredHit_concurrency (s : State) (b : Bool) : (s.setPredHit b).concurrency = s.concurrency := rfl
@[simp] theorem setPredHit_resultNonce (s : State) (b : Bool) : (s.setPredHit b).resultNonce = s.resultNonce := rfl
@[simp] theorem setPredHit_hdr (s : State) (b : Bool) : (s.setPredHit b).hdr = s.hdr := rfl
@[simp] theorem setPredHit_digest (s : State) (b : Bool) : (s.setPredHit b).digest = s.digest := rfl
@[simp] theorem setPredHit_job (s : State) (b : Bool) : (s.setPredHit b).job = s.job := rfl
@[simp] theorem setPredHit_pending (s : State) (b : Bool) : (s.setPredHit b).pending = s.pending := rfl
@[simp] theorem setPredHit_searching (s : State) (b : Bool) : (s.setPredHit b).searching = s.searching := rfl
@[simp] theorem setPredHit_lanes (s : State) (b : Bool) : (s.setPredHit b).lanes = s.lanes := rfl
@[simp] theorem setPredHit_base (s : State) (b : Bool) : (s.setPredHit b).base = s.base := rfl
@[simp] theorem setPredHit_script (s : State) (b : Bool) : (s.setPredHit b).script = s.script := rfl
@[simp] theorem setPredHit_turns (s : State) (b : Bool) : (s.setPredHit b).turns = s.turns := rfl
@[simp] theorem setPredHit_choices (s : State) (b : Bool) : (s.setPredHit b).choices = s.choices := rfl
@[simp] theorem setPredHit_lastRead (s : State) (b : Bool) : (s.setPredHit b).lastRead = s.lastRead := rfl

/-! `launch` -/

@[simp] theorem launch_status_state (s : State) : (launch s).status.state = s.status.state := rfl
@[simp] theorem launch_status_resultValid (s : State) : (launch s).status.resultValid = false := rfl
@[simp] theorem launch_status_predHit (s : State) : (launch s).status.predHit = s.status.predHit := rfl
@[simp] theorem launch_status_rej (s : State) : (launch s).status.rej = s.status.rej := rfl
@[simp] theorem launch_status_err (s : State) : (launch s).status.err = s.status.err := rfl
@[simp] theorem launch_status_op (s : State) : (launch s).status.op = s.status.op := rfl
@[simp] theorem launch_startNonce (s : State) : (launch s).startNonce = s.startNonce := rfl
@[simp] theorem launch_concurrency (s : State) : (launch s).concurrency = s.concurrency := rfl
@[simp] theorem launch_resultNonce (s : State) : (launch s).resultNonce = 0 := rfl
@[simp] theorem launch_hdr (s : State) : (launch s).hdr = s.hdr := rfl
@[simp] theorem launch_digest (s : State) : (launch s).digest = s.digest := rfl
@[simp] theorem launch_job (s : State) : (launch s).job = s.job := rfl
@[simp] theorem launch_pending (s : State) : (launch s).pending = s.pending := rfl
@[simp] theorem launch_searching (s : State) : (launch s).searching = true := rfl
@[simp] theorem launch_lanes (s : State) : (launch s).lanes = s.lanes.mapIdx (launchLane s.concurrency.toNat) := rfl
@[simp] theorem launch_base (s : State) : (launch s).base = s.base := rfl
@[simp] theorem launch_script (s : State) : (launch s).script = s.script := rfl
@[simp] theorem launch_turns (s : State) : (launch s).turns = s.turns := rfl
@[simp] theorem launch_choices (s : State) : (launch s).choices = s.choices := rfl
@[simp] theorem launch_lastRead (s : State) : (launch s).lastRead = s.lastRead := rfl

/-! `setLane` -/

@[simp] theorem setLane_status (s : State) (i : Nat) (l : Lane) : (s.setLane i l).status = s.status := rfl
@[simp] theorem setLane_startNonce (s : State) (i : Nat) (l : Lane) : (s.setLane i l).startNonce = s.startNonce := rfl
@[simp] theorem setLane_concurrency (s : State) (i : Nat) (l : Lane) : (s.setLane i l).concurrency = s.concurrency := rfl
@[simp] theorem setLane_resultNonce (s : State) (i : Nat) (l : Lane) : (s.setLane i l).resultNonce = s.resultNonce := rfl
@[simp] theorem setLane_hdr (s : State) (i : Nat) (l : Lane) : (s.setLane i l).hdr = s.hdr := rfl
@[simp] theorem setLane_digest (s : State) (i : Nat) (l : Lane) : (s.setLane i l).digest = s.digest := rfl
@[simp] theorem setLane_job (s : State) (i : Nat) (l : Lane) : (s.setLane i l).job = s.job := rfl
@[simp] theorem setLane_pending (s : State) (i : Nat) (l : Lane) : (s.setLane i l).pending = s.pending := rfl
@[simp] theorem setLane_searching (s : State) (i : Nat) (l : Lane) : (s.setLane i l).searching = s.searching := rfl
@[simp] theorem setLane_lanes (s : State) (i : Nat) (l : Lane) : (s.setLane i l).lanes = s.lanes.set i l := rfl
@[simp] theorem setLane_base (s : State) (i : Nat) (l : Lane) : (s.setLane i l).base = s.base := rfl
@[simp] theorem setLane_script (s : State) (i : Nat) (l : Lane) : (s.setLane i l).script = s.script := rfl
@[simp] theorem setLane_turns (s : State) (i : Nat) (l : Lane) : (s.setLane i l).turns = s.turns := rfl
@[simp] theorem setLane_choices (s : State) (i : Nat) (l : Lane) : (s.setLane i l).choices = s.choices := rfl
@[simp] theorem setLane_lastRead (s : State) (i : Nat) (l : Lane) : (s.setLane i l).lastRead = s.lastRead := rfl

/-! `finish` -/

@[simp] theorem finish_status_state (s : State) : (finish s).status.state = (if s.status.resultValid then .found else .exhausted) := rfl
@[simp] theorem finish_status_resultValid (s : State) : (finish s).status.resultValid = s.status.resultValid := rfl
@[simp] theorem finish_status_predHit (s : State) : (finish s).status.predHit = s.status.predHit := rfl
@[simp] theorem finish_status_rej (s : State) : (finish s).status.rej = s.status.rej := rfl
@[simp] theorem finish_status_err (s : State) : (finish s).status.err = s.status.err := rfl
@[simp] theorem finish_status_op (s : State) : (finish s).status.op = s.status.op := rfl
@[simp] theorem finish_startNonce (s : State) : (finish s).startNonce = s.startNonce := rfl
@[simp] theorem finish_concurrency (s : State) : (finish s).concurrency = s.concurrency := rfl
@[simp] theorem finish_resultNonce (s : State) : (finish s).resultNonce = s.resultNonce := rfl
@[simp] theorem finish_hdr (s : State) : (finish s).hdr = s.hdr := rfl
@[simp] theorem finish_digest (s : State) : (finish s).digest = s.digest := rfl
@[simp] theorem finish_job (s : State) : (finish s).job = s.job := rfl
@[simp] theorem finish_pending (s : State) : (finish s).pending = s.pending := rfl
@[simp] theorem finish_searching (s : State) : (finish s).searching = false := rfl
@[simp] theorem finish_lanes (s : State) : (finish s).lanes = s.lanes := rfl
@[simp] theorem finish_base (s : State) : (finish s).base = s.base := rfl
@[simp] theorem finish_script (s : State) : (finish s).script = s.script := rfl
@[simp] theorem finish_turns (s : State) : (finish s).turns = s.turns := rfl
@[simp] theorem finish_choices (s : State) : (finish s).choices = s.choices := rfl
@[simp] theorem finish_lastRead (s : State) : (finish s).lastRead = s.lastRead := rfl

/-! `resetInput` -/

@[simp] theorem resetInput_status (s : State) : (resetInput s).status = Status.reset := rfl
@[simp] theorem resetInput_startNonce (s : State) : (resetInput s).startNonce = 0 := rfl
@[simp] theorem resetInput_concurrency (s : State) : (resetInput s).concurrency = 0 := rfl
@[simp] theorem resetInput_resultNonce (s : State) : (resetInput s).resultNonce = 0 := rfl
@[simp] theorem resetInput_hdr (s : State) : (resetInput s).hdr = Vector.replicate 20 0 := rfl
@[simp] theorem resetInput_digest (s : State) : (resetInput s).digest = Vector.replicate 8 0 := rfl
@[simp] theorem resetInput_job (s : State) : (resetInput s).job = Vector.replicate 13 0 := rfl
@[simp] theorem resetInput_pending (s : State) : (resetInput s).pending = none := rfl
@[simp] theorem resetInput_searching (s : State) : (resetInput s).searching = false := rfl
@[simp] theorem resetInput_lanes (s : State) : (resetInput s).lanes = List.replicate s.lanes.length Lane.reset := rfl
@[simp] theorem resetInput_base (s : State) : (resetInput s).base = s.base := rfl
@[simp] theorem resetInput_script (s : State) : (resetInput s).script = s.script := rfl
@[simp] theorem resetInput_turns (s : State) : (resetInput s).turns = s.turns := rfl
@[simp] theorem resetInput_choices (s : State) : (resetInput s).choices = s.choices := rfl
@[simp] theorem resetInput_lastRead (s : State) : (resetInput s).lastRead = s.lastRead := rfl

end Sys2Proof.Machine
end

