-- ==== Sys2Proof/Laws/Ops.lean ====
section
/-! SUPPORT. What each shared operation can do, said once: later proofs cite these lemmas instead of unfolding the
operation. -/

namespace Sys2Proof.Machine

theorem busy_eq_true {s : State} : s.busy = true ↔ s.status.state = .busy := by simp [State.busy]

theorem busy_eq_false {s : State} : s.busy = false ↔ s.status.state ≠ .busy := by simp [State.busy]

theorem active_eq_true {l : Lane} : l.active = true ↔ (l.phase = .run ∨ l.phase = .pend) := by simp [Lane.active]

theorem active_eq_false {l : Lane} : l.active = false ↔ (l.phase ≠ .run ∧ l.phase ≠ .pend) := by simp [Lane.active]

/-- A write to `CMD` is dropped, accepted or refused (spec/30_encoding.md R84). -/
theorem acceptCommand_cases (v : Word) (s : State) :
    (s.busy = true ∧ acceptCommand v s = dropWrite s) ∨
    (s.busy = false ∧ ∃ i, decode v = .ok i ∧ acceptCommand v s = acceptLegal i s) ∨
    (s.busy = false ∧ (∃ x, decode v = .error x) ∧ acceptCommand v s = acceptIllegal s) := by
  unfold acceptCommand
  cases hb : s.busy
  · cases hd : decode v <;> simp
  · simp

/-- The derivation of the predicate writes `JOB[11..12]` only (spec/41_header_predicate.md R128). -/
theorem derivePredicate_cases (s : State) :
    (∃ p, predicateOf s.hdr[18] = some p ∧
      derivePredicate s = (true, { s with job := jobWithPredicate s.job (BitVec.ofNat 32 p.offset.val) p.mask })) ∨
    (predicateOf s.hdr[18] = none ∧ derivePredicate s = (false, { s with job := jobWithPredicate s.job 0 0 })) := by
  unfold derivePredicate
  cases hp : predicateOf s.hdr[18] <;> simp

/-- Only the first publish takes effect (spec/43_search.md R183). -/
theorem publish_cases (n : Word) (s : State) :
    (s.status.resultValid = true ∧ publish n s = s) ∨
    (s.status.resultValid = false ∧
      publish n s = { s with resultNonce := n, status := { s.status with resultValid := true } }) := by
  unfold publish
  cases hv : s.status.resultValid <;> simp

/-- PREPARE completes or raises PRED_RANGE (spec/42_sha256d.md R160). -/
theorem execPrepare_cases (s : State) :
    (∃ p, predicateOf s.hdr[18] = some p ∧ execPrepare s = .next { s with
      pending := none
      job := jobWithPredicate (deriveMidstate s).job (BitVec.ofNat 32 p.offset.val) p.mask
      status := { s.status with state := .idle } }) ∨
    (predicateOf s.hdr[18] = none ∧ execPrepare s = .next { s with
      pending := none, job := jobWithPredicate (deriveMidstate s).job 0 0
      status := { s.status with state := .error, err := .predRange } }) := by
  unfold execPrepare
  rcases derivePredicate_cases (deriveMidstate s.clearPending) with ⟨p, hp, h⟩ | ⟨hp, h⟩
  · exact .inl ⟨p, hp, by rw [h]; rfl⟩
  · exact .inr ⟨hp, by rw [h]; rfl⟩

/-- HASH always completes (spec/42_sha256d.md R161). -/
theorem execHash_eq (s : State) :
    execHash s = .next { s with
      pending := none, job := (deriveMidstate s).job
      digest := (deriveMidstate s).jobDigest s.startNonce
      status := { s.status with state := .idle } } := rfl

/-- TEST completes or raises PRED_RANGE (spec/41_header_predicate.md R132). -/
theorem execTest_cases (s : State) :
    (∃ p job, predicateOf s.hdr[18] = some p ∧
      job = jobWithPredicate s.job (BitVec.ofNat 32 p.offset.val) p.mask ∧
      execTest s = .next { s with
        pending := none, job := job
        status := { s.status with
          state := .idle, predHit := predicateTest (jobOffset job) (jobMask job) s.digest } }) ∨
    (predicateOf s.hdr[18] = none ∧ execTest s = .next { s with
      pending := none, job := jobWithPredicate s.job 0 0
      status := { s.status with state := .error, err := .predRange, predHit := false } }) := by
  unfold execTest
  rcases derivePredicate_cases s.clearPending with ⟨p, hp, h⟩ | ⟨hp, h⟩
  · exact .inl ⟨p, _, hp, rfl, by rw [h]; rfl⟩
  · exact .inr ⟨hp, by rw [h]; rfl⟩

/-- SEARCH launches, or raises BAD_CONCURRENCY, or PRED_RANGE (spec/43_search.md R178). -/
theorem execSearch_cases (s : State) :
    (s.legalConcurrency = false ∧ execSearch s = .next { s with
      pending := none, status := { s.status with state := .error, err := .badConcurrency } }) ∨
    (s.legalConcurrency = true ∧ predicateOf s.hdr[18] = none ∧ execSearch s = .next { s with
      pending := none, job := jobWithPredicate (deriveMidstate s).job 0 0
      status := { s.status with state := .error, err := .predRange } }) ∨
    (s.legalConcurrency = true ∧ ∃ p, predicateOf s.hdr[18] = some p ∧ execSearch s = .next { s with
      pending := none
      job := jobWithPredicate (deriveMidstate s).job (BitVec.ofNat 32 p.offset.val) p.mask
      resultNonce := 0
      lanes := s.lanes.mapIdx (launchLane s.concurrency.toNat)
      searching := true
      status := { s.status with resultValid := false } }) := by
  have hl : s.clearPending.legalConcurrency = s.legalConcurrency := rfl
  unfold execSearch
  cases hc : s.legalConcurrency
  · exact .inl ⟨rfl, by simp only [hl, hc]; rfl⟩
  · rcases derivePredicate_cases (deriveMidstate s.clearPending) with ⟨p, hp, h⟩ | ⟨hp, h⟩
    · exact .inr (.inr ⟨rfl, p, hp, by simp only [hl, hc, h]; rfl⟩)
    · exact .inr (.inl ⟨rfl, hp, by simp only [hl, hc, h]; rfl⟩)

/-- A lane's turn: no step, a begin step or a complete step (spec/43_search.md R181, R182). -/
theorem laneStep_cases (i : Nat) (s : State) :
    ((∀ l, s.lanes[i]? = some l → l.active = false) ∧ laneStep i s = s) ∨
    (∃ l, s.lanes[i]? = some l ∧ l.phase = .run ∧ laneStep i s = beginStep i l s) ∨
    (∃ l, s.lanes[i]? = some l ∧ l.phase = .pend ∧ laneStep i s = completeStep i l s) := by
  unfold laneStep
  cases hl : s.lanes[i]? with
  | none => simp
  | some l => cases hp : l.phase <;> simp [hp, Lane.active]

/-- A trial hits or misses (spec/43_search.md R182). -/
theorem completeStep_cases (i : Nat) (l : Lane) (s : State) :
    (s.hits (trialNonce s.startNonce l.k) = true ∧
      completeStep i l s = (publish (trialNonce s.startNonce l.k) s).setLane i
        { l.counted s (trialNonce s.startNonce l.k) with phase := .found }) ∨
    (s.hits (trialNonce s.startNonce l.k) = false ∧
      completeStep i l s = s.setLane i
        { l.counted s (trialNonce s.startNonce l.k) with k := l.k + s.concurrency.setWidth 33, phase := .run }) := by
  unfold completeStep
  cases hh : s.hits (trialNonce s.startNonce l.k)
  · exact .inr ⟨rfl, by simp [hh, Lane.counted]⟩
  · exact .inl ⟨rfl, by simp [hh]⟩

/-- The controller's turn executes the pending command, or finishes a search, or does nothing. -/
theorem controllerStep_cases (s : State) :
    (∃ i, s.pending = some i ∧ controllerStep s = exec i s) ∨
    (s.pending = none ∧ s.canFinish = true ∧ controllerStep s = .next (finish s)) ∨
    (s.pending = none ∧ s.canFinish = false ∧ controllerStep s = .next s) := by
  unfold controllerStep
  cases hp : s.pending with
  | some i => exact .inl ⟨i, rfl, rfl⟩
  | none => cases hf : s.canFinish <;> simp

theorem canFinish_eq_true {s : State} :
    s.canFinish = true ↔ s.searching = true ∧ ∀ l ∈ s.lanes, l.active = false := by
  simp [State.canFinish]

/-- Whether an access is outside the window, a bus error or at an offset (spec/20_memory.md R60 to R62). -/
theorem accessOffset_cases (base addr n : Nat) :
    ((addr < base ∨ base + Config.windowSize ≤ addr) ∧ accessOffset base addr n = .error .outsideWindow) ∨
    (base ≤ addr ∧ addr < base + Config.windowSize ∧ (n ≠ 4 ∨ (addr - base) % 4 ≠ 0) ∧
      accessOffset base addr n = .error .busError) ∨
    (base ≤ addr ∧ addr < base + Config.windowSize ∧ n = 4 ∧ (addr - base) % 4 = 0 ∧
      accessOffset base addr n = .ok (addr - base)) := by
  unfold accessOffset
  by_cases h1 : addr < base ∨ base + Config.windowSize ≤ addr
  · exact .inl ⟨h1, by simp [h1]⟩
  · by_cases h2 : n ≠ 4 ∨ (addr - base) % 4 ≠ 0
    · exact .inr (.inl ⟨by omega, by omega, h2, by simp [h1, h2]⟩)
    · exact .inr (.inr ⟨by omega, by omega, by omega, by omega, by simp [h1, h2]⟩)

/-- What a legal write can do: nothing, take a command, be dropped, or write one data register
(spec/20_memory.md R64 to R66). -/
theorem writeReg_cases (s : State) (r : RegName) (v : Word) :
    (isReadOnlyReg r = true ∧ writeReg s r v = s) ∨
    (r = .cmd ∧ writeReg s r v = acceptCommand v s) ∨
    (isDataReg r = true ∧ s.busy = true ∧ writeReg s r v = dropWrite s) ∨
    (isDataReg r = true ∧ s.busy = false ∧ ∃ sn c h d,
      writeReg s r v = { s with startNonce := sn, concurrency := c, hdr := h, digest := d }) := by
  have hw : ∀ w, (s.busy = true ∧ writeData s w = dropWrite s) ∨ (s.busy = false ∧ writeData s w = w) := by
    intro w; unfold writeData; cases s.busy <;> simp
  cases r with
  | cmd => exact .inr (.inl ⟨rfl, rfl⟩)
  | startNonce =>
    rcases hw { s with startNonce := v } with ⟨hb, h⟩ | ⟨hb, h⟩
    · exact .inr (.inr (.inl ⟨rfl, hb, h⟩))
    · exact .inr (.inr (.inr ⟨rfl, hb, _, _, _, _, h⟩))
  | concurrency =>
    rcases hw { s with concurrency := v } with ⟨hb, h⟩ | ⟨hb, h⟩
    · exact .inr (.inr (.inl ⟨rfl, hb, h⟩))
    · exact .inr (.inr (.inr ⟨rfl, hb, _, _, _, _, h⟩))
  | hdr i =>
    rcases hw { s with hdr := s.hdr.set i v } with ⟨hb, h⟩ | ⟨hb, h⟩
    · exact .inr (.inr (.inl ⟨rfl, hb, h⟩))
    · exact .inr (.inr (.inr ⟨rfl, hb, _, _, _, _, h⟩))
  | digest i =>
    rcases hw { s with digest := s.digest.set i v } with ⟨hb, h⟩ | ⟨hb, h⟩
    · exact .inr (.inr (.inl ⟨rfl, hb, h⟩))
    · exact .inr (.inr (.inr ⟨rfl, hb, _, _, _, _, h⟩))
  | _ => exact .inl ⟨by simp [isReadOnlyReg, isDataReg], rfl⟩

/-- A write that succeeds is a write to the register at its offset, or is ignored. -/
theorem busWrite_cases {s t : State} {addr n : Nat} {v : Word} (h : busWrite s addr n v = .ok t) :
    n = 4 ∧ s.base ≤ addr ∧ addr < s.base + Config.windowSize ∧ (addr - s.base) % 4 = 0 ∧
      ((∃ r, regAt (addr - s.base) = some r ∧ t = writeReg s r v) ∨ (regAt (addr - s.base) = none ∧ t = s)) := by
  unfold busWrite at h
  rcases accessOffset_cases s.base addr n with ⟨_, ha⟩ | ⟨_, _, _, ha⟩ | ⟨h1, h2, h3, h4, ha⟩
  · simp [ha] at h
  · simp [ha] at h
  · refine ⟨h3, h1, h2, h4, ?_⟩
    cases hr : regAt (addr - s.base) with
    | none => simp [ha, hr] at h; exact .inr ⟨rfl, h.symm⟩
    | some r => simp [ha, hr] at h; exact .inl ⟨r, rfl, h.symm⟩

/-- One host access that does not fault: a read or poll moves only `lastRead`, a write is a bus write. -/
theorem hostAccess_cases {stmt : HostStmt} {s t : State} (h : hostAccess stmt s = .next t) :
    (∃ v, t = { s with lastRead := some v }) ∨
    (∃ addr n v, stmt = .write addr n v ∧ busWrite s addr n v = .ok t) := by
  unfold hostAccess at h
  cases stmt with
  | read addr n =>
    cases hb : busRead s addr n with
    | ok v => simp [hb] at h; exact .inl ⟨v, h.symm⟩
    | error f => simp [hb] at h
  | write addr n v =>
    cases hb : busWrite s addr n v with
    | ok u => simp [hb] at h; subst h; exact .inr ⟨addr, n, v, rfl, hb⟩
    | error f => simp [hb] at h
  | wait => simp at h; exact .inl ⟨_, h.symm⟩

/-- A host turn that does not fault: nothing, a read or poll, or a bus write, on the state with the statement taken
from the script unless it is a `WAIT` that has read BUSY. -/
theorem hostStep_cases {s t : State} (h : hostStep s = .next t) :
    (s.script = [] ∧ t = s) ∨
    (∃ script v, t = { s with script := script, lastRead := some v }) ∨
    (∃ addr n v script, s.script = .write addr n v :: script ∧
      busWrite { s with script := script } addr n v = .ok t) := by
  unfold hostStep at h
  cases hs : s.script with
  | nil => simp [hs] at h; exact .inl ⟨rfl, h.symm⟩
  | cons stmt script =>
    simp only [hs] at h
    by_cases hw : staysInScript stmt s = true
    · simp only [hw, if_true] at h
      rcases hostAccess_cases h with ⟨v, rfl⟩ | ⟨addr, n, v, rfl, hb⟩
      · exact .inr (.inl ⟨s.script, v, rfl⟩)
      · simp [staysInScript] at hw
    · simp only [hw] at h
      rcases hostAccess_cases h with ⟨v, rfl⟩ | ⟨addr, n, v, rfl, hb⟩
      · exact .inr (.inl ⟨script, v, rfl⟩)
      · exact .inr (.inr ⟨addr, n, v, script, rfl, hb⟩)

/-- A free turn is the turn of an agent that has an enabled step. -/
theorem freeTurn_enabled {s : State} {a : Turn} (h : s.freeTurn = some a) : turnEnabled s a = true := by
  have hm : a ∈ s.enabledTurns := by
    unfold State.freeTurn at h
    split at h
    · cases h
    · next t ht => simp at h; simp [ht, h]
    · next t ts ht => rw [ht]; exact List.mem_of_getElem? h
  exact (List.mem_filter.mp hm).2

/-- No free turn is left only when no agent has an enabled step. -/
theorem freeTurn_none {s : State} (h : s.freeTurn = none) (a : Turn) : turnEnabled s a = false := by
  have hn : s.enabledTurns = [] := by
    unfold State.freeTurn at h
    split at h
    · assumption
    · cases h
    · next t ts _ ht =>
      exact absurd (List.getElem?_eq_none_iff.mp h) (Nat.not_le.mpr (Nat.mod_lt _ (by simp)))
  by_contra hc
  have ha : turnEnabled s a = true := by simpa using hc
  have hmem : a ∈ s.allTurns := by
    cases a with
    | host => simp [State.allTurns]
    | controller => simp [State.allTurns]
    | lane i =>
      have : i < s.lanes.length := by
        by_contra hi
        simp [turnEnabled, List.getElem?_eq_none (Nat.not_lt.mp hi)] at ha
      simp [State.allTurns, State.numWorkers, this]
    | reset => simp [turnEnabled] at ha
  have : a ∈ s.enabledTurns := List.mem_filter.mpr ⟨hmem, ha⟩
  simp [hn] at this

/-- What one step of the machine can be: the first turn fixed in advance, a free turn, or none. -/
theorem step_cases {s t : State} (h : step s = .next t) :
    (∃ a rest, s.turns = a :: rest ∧ takeTurn a { s with turns := rest } = .next t) ∨
    (s.turns = [] ∧ ∃ a, s.freeTurn = some a ∧ takeTurn a { s with choices := s.choices + 1 } = .next t) ∨
    (s.turns = [] ∧ s.freeTurn = none ∧ t = s) := by
  unfold step nextStep at h
  cases ht : s.turns with
  | cons a rest => exact .inl ⟨a, rest, rfl, by simpa [ht] using h⟩
  | nil =>
    cases hf : s.freeTurn with
    | some a => exact .inr (.inl ⟨rfl, a, rfl, by simpa [ht, hf] using h⟩)
    | none => exact .inr (.inr ⟨rfl, rfl, by simpa [ht, hf, eq_comm] using h⟩)

end Sys2Proof.Machine
end

