-- ==== Sys2Proof/Laws/PerInstr.lean ====
section
/-! SUPPORT. Facts about each command as syntax, one lemma per constructor. -/

namespace Sys2Proof.Laws

/-- The word of a command has `MBZ = 0` and its opcode in `OPC`, and decodes to the command (spec/30_encoding.md R80,
R81). -/
def Encoding.Statement (i : Instr) : Prop :=
  i.wellFormed = true ∧ mbzField (encode i) = 0 ∧ opcField (encode i) = opcode i ∧ decode (encode i) = .ok i

theorem Encoding.prepare : Encoding.Statement .prepare := ⟨rfl, rfl, rfl, rfl⟩

theorem Encoding.hash : Encoding.Statement .hash := ⟨rfl, rfl, rfl, rfl⟩

theorem Encoding.test : Encoding.Statement .test := ⟨rfl, rfl, rfl, rfl⟩

theorem Encoding.search : Encoding.Statement .search := ⟨rfl, rfl, rfl, rfl⟩

end Sys2Proof.Laws
end

