-- ==== Sys2Proof/Tests/Slice0.lean ====
section
/-! SUPPORT. Tests on the spec's own vectors (spec/95_test_vectors.md), and for every obligation with hypotheses a
concrete state and operands that meet them. Expected values are the spec's. -/

namespace Sys2Proof.Tests

open Sys2Proof.Machine

/-! ### States of the tests -/

/-- The genesis header of spec/95_test_vectors.md section 2. -/
def genesisHdr : Vector Word 20 :=
  #v[0x01000000, 0, 0, 0, 0, 0, 0, 0, 0, 0x3ba3edfd, 0x7a7b12b2, 0x7ac72c3e, 0x67768f61, 0x7fc81bc3, 0x888a5132,
     0x3a9fb8aa, 0x4b1e5e4a, 0x29ab5f49, 0xffff001d, 0x1dac2b7c]

/-- The midstate V-H3. -/
def genesisMidstate : Vector Word 8 :=
  #v[0xbc909a33, 0x6358bff0, 0x90ccac7d, 0x1e59caa8, 0xc3c8d8e9, 0x4f0103c8, 0x96b18736, 0x4719f91b]

/-- The block with `n` lanes at `BASE` 0x400, after reset, with the genesis header whose word 18 is `w`. -/
def headerState (n : Nat) (w : Word) : State :=
  { State.resetOf { base := 0x400, numWorkers := n } with hdr := genesisHdr.set 18 w }

/-- The same with the command `i` accepted. -/
def pendingState (n : Nat) (w : Word) (i : Instr) : State := acceptLegal i (headerState n w)

/-- A job window whose predicate is `offset`, `mask`. -/
def jobOf (offset mask : Word) : Vector Word 13 :=
  #v[0x4b1e5e4a, 0x29ab5f49, 0xffff001d, 0xbc909a33, 0x6358bff0, 0x90ccac7d, 0x1e59caa8, 0xc3c8d8e9, 0x4f0103c8,
     0x96b18736, 0x4719f91b, offset, mask]

/-- A one-lane search whose every trial hits (header G32: mask 0), the lane being `l`, the job window as its launch
derives it. -/
def runningState (l : Lane) : State :=
  { pendingState 1 0xffff0020 .search with
    pending := none, searching := true, concurrency := 1, job := (jobOf 7 0).set 2 0xffff0020, lanes := [l] }

/-- The outcome is a next state of which `p` holds. -/
def nextWith (o : Host.Outcome State Fault Refusal) (p : State → Bool) : Bool :=
  match o with
  | .next t => p t
  | .fault _ => false
  | .refused _ => false

/-! ### Decode: each word bit by bit from R80, R81 -/

theorem test_decode_prepare : decode (0b0000000000000000000000000000#28 ++ 0b0001#4) = .ok .prepare := by decide

theorem test_decode_hash : decode (0b0000000000000000000000000000#28 ++ 0b0010#4) = .ok .hash := by decide

theorem test_decode_test : decode (0b0000000000000000000000000000#28 ++ 0b0011#4) = .ok .test := by decide

theorem test_decode_search : decode (0b0000000000000000000000000000#28 ++ 0b0100#4) = .ok .search := by decide

/-- V-A6, P6. -/
theorem test_decode_illegal :
    decode 0x00000000 = .error .reservedOpcode ∧ decode 0x00000005 = .error .reservedOpcode ∧
    decode 0x0000000F = .error .reservedOpcode ∧ decode 0x00000010 = .error .mbzNotZero ∧
    decode 0x00000014 = .error .mbzNotZero ∧ decode 0x80000001 = .error .mbzNotZero := by decide

theorem test_encode_words : encode .prepare = 1 ∧ encode .hash = 2 ∧ encode .test = 3 ∧ encode .search = 4 := by decide

/-! ### Well-formedness refuses what is ill formed -/

theorem test_config_refused :
    ({ base := 0, numWorkers := 0 } : Config).wellFormed = false ∧
    ({ base := 0, numWorkers := 33 } : Config).wellFormed = false ∧
    ({ base := 0x200, numWorkers := 4 } : Config).wellFormed = false ∧
    ({ base := 0x400, numWorkers := 32 } : Config).wellFormed = true ∧ Config.ofReset.wellFormed = true := by decide

/-- V-A15 and the edges of the window. -/
theorem test_access_refused :
    (HostStmt.read 0x406 4).wellFormed 0x400 = false ∧ (HostStmt.read 0x404 2).wellFormed 0x400 = false ∧
    (HostStmt.write 0x441 4 0).wellFormed 0x400 = false ∧ (HostStmt.read 0x800 4).wellFormed 0x400 = false ∧
    (HostStmt.read 0x3FC 4).wellFormed 0x400 = false ∧ (HostStmt.read 0x7FC 4).wellFormed 0x400 = true := by decide

/-! ### SHA-256 -/

/-- V-H1: SHA-256 of "abc". -/
theorem test_compress_abc :
    compress #v[0x61626380, 0, 0, 0, 0, 0, 0, 0, 0, 0, 0, 0, 0, 0, 0, 0x18] initialHash =
      #v[0xba7816bf, 0x8f01cfea, 0x414140de, 0x5dae2223, 0xb00361a3, 0x96177a9c, 0xb410ff61, 0xf20015ad] := by
  decide +kernel

/-- V-H3. -/
theorem test_midstate_genesis : computeMidstate genesisHdr = genesisMidstate := by decide +kernel

/-- V-H5, V-H6. -/
theorem test_first_digest_genesis :
    firstBlock (headerTail genesisHdr) 0x7c2bac1d =
      #v[0x4b1e5e4a, 0x29ab5f49, 0xffff001d, 0x1dac2b7c, 0x80000000, 0, 0, 0, 0, 0, 0, 0, 0, 0, 0, 0x280] ∧
    firstDigest genesisMidstate (headerTail genesisHdr) 0x7c2bac1d =
      #v[0xaf42031e, 0x805ff493, 0xa07341e2, 0xf74ff581, 0x49d22ab9, 0xba19f613, 0x43e2c86c, 0x71c5d66d] := by
  decide +kernel

/-- V-H7. -/
theorem test_double_hash_genesis :
    doubleHash genesisMidstate (headerTail genesisHdr) 0x7c2bac1d =
      #v[0x6fe28c0a, 0xb6f1b372, 0xc1a6a246, 0xae63f74f, 0x931e8365, 0xe15a089c, 0x68d61900, 0x00000000] := by
  decide +kernel

/-- The known digest of "abc" (spec/93_implementation_defined.md G12), from the byte-level reading. -/
theorem test_sha256_abc_first_word :
    (sha256 [0x61, 0x62, 0x63]).take 4 = [0xba, 0x78, 0x16, 0xbf] := by decide +kernel

/-! ### The comparator -/

/-- Table V-P at the edges of the domain and of one group of four. -/
theorem test_predicate_table :
    predicateOf 0xffffff00 = none ∧ predicateOf 0x01 = some { offset := 0, mask := 0x00ffffff } ∧
    predicateOf 0xffff0004 = some { offset := 0, mask := 0 } ∧
    predicateOf 0x05 = some { offset := 1, mask := 0x00ffffff } ∧
    predicateOf 0xffff001d = some { offset := 7, mask := 0x00ffffff } ∧
    predicateOf 0xffff001f = some { offset := 7, mask := 0x000000ff } ∧
    predicateOf 0x20 = some { offset := 7, mask := 0 } ∧ predicateOf 0xffff0021 = none ∧
    predicateOf 0x000000ff = none := by decide

/-- V-T2, V-T4, V-T7, V-T8, V-T10, V-T11. -/
theorem test_predicate_test :
    predicateTest 7 0x00ffffff #v[0xffffffff, 0xffffffff, 0, 0, 0, 0, 0xffffffff, 0xff000000] = true ∧
    predicateTest 7 0x00ffffff #v[0, 0, 0, 0, 0, 0, 0, 0x100] = false ∧
    predicateTest 6 0 #v[0, 0, 0, 0, 0, 0, 0xffffffff, 0] = true ∧
    predicateTest 6 0 #v[0, 0, 0, 0, 0, 0, 0, 0x80000000] = false ∧
    predicateTest 0 0x00ffffff #v[0xff000000, 0, 0, 0, 0, 0, 0, 0] = true ∧
    predicateTest 0 0x00ffffff #v[0x100, 0, 0, 0, 0, 0, 0, 0] = false := by decide

/-! ### Commands -/

/-- P1. -/
theorem test_prepare_genesis :
    nextWith (exec .prepare (pendingState 4 0xffff001d .prepare)) (fun t =>
      t.job = jobOf 7 0x00ffffff && readReg t .status = 0x00001000) = true := by decide +kernel

/-- V-A8, with the header G33. -/
theorem test_prepare_out_of_range :
    nextWith (exec .prepare (pendingState 4 0xffff0021 .prepare)) (fun t =>
      readReg t .status = 0x00001304 && t.job[11] = 0) = true := by decide +kernel

/-- P2: word 7 of the digest of nonce 0x7c2bac1c (V-H8). -/
theorem test_hash_genesis :
    nextWith (exec .hash { pendingState 4 0xffff001d .hash with startNonce := 0x7c2bac1c }) (fun t =>
      t.digest[7] = 0x3d34dc8c && readReg t .status = 0x00002000) = true := by decide +kernel

/-- R132's example: 0x01000000 in word 7 is outside the mask, 0x00000100 is in it. -/
theorem test_test_hit_and_miss :
    nextWith (exec .test { pendingState 4 0xffff001d .test with digest := #v[1, 2, 3, 4, 5, 6, 7, 0x01000000] })
      (fun t => readReg t .status = 0x00003010) = true ∧
    nextWith (exec .test { pendingState 4 0xffff001d .test with digest := #v[0, 0, 0, 0, 0, 0, 0, 0x00000100] })
      (fun t => readReg t .status = 0x00003000) = true := by decide +kernel

/-- V-A10. -/
theorem test_test_out_of_range :
    nextWith (exec .test (pendingState 4 0xffff0021 .test)) (fun t => readReg t .status = 0x00003304) = true := by
  decide +kernel

/-- R178 with `c = 3` of 4 lanes. -/
theorem test_search_launch :
    nextWith (exec .search { pendingState 4 0xffff0020 .search with concurrency := 3 }) (fun t =>
      t.lanes.map (fun l => (l.phase, l.k)) = [(.run, 0), (.run, 1), (.run, 2), (.idle, 0)] &&
      readReg t .status = 0x00004001 && readReg t .laneActive = 7) = true := by decide +kernel

/-- V-A2, V-A4, V-A5: the lane count is checked first. -/
theorem test_search_errors :
    nextWith (exec .search (pendingState 4 0xffff0021 .search))
      (fun t => readReg t .status = 0x00004204 && t.job[0] = 0) = true ∧
    nextWith (exec .search { pendingState 4 0xffff001d .search with concurrency := 5 })
      (fun t => readReg t .status = 0x00004204) = true ∧
    nextWith (exec .search { pendingState 4 0xffff0021 .search with concurrency := 4 })
      (fun t => readReg t .status = 0x00004304) = true := by decide +kernel

/-! ### Lanes -/

/-- R181: exhaustion is checked before the result. -/
theorem test_begin_phases :
    beginPhase true 0x100000000 = .exh ∧ beginPhase true 0xffffffff = .found ∧ beginPhase false 0xffffffff = .pend := by
  decide

/-- V-S2: lane 1 of 3 wraps from offset 1 to offset 4, nonces 0xffffffff and 0x00000002. -/
theorem test_trial_nonce_wraps :
    trialNonce 0xfffffffe 1 = 0xffffffff ∧ trialNonce 0xfffffffe 4 = 0x00000002 ∧
    trialNonce 0xfffffffe 0xffffffff = 0xfffffffd := by decide

/-! ### The register window -/

/-- V-A13, V-A14, V-A16, V-A17 on a block of 4 lanes. -/
theorem test_window_reads :
    busRead (headerState 4 0) 0x400 4 = .ok 0 ∧ busRead (headerState 4 0) 0x414 4 = .ok 4 ∧
    busRead (headerState 4 0) 0x428 4 = .ok 0 ∧ busRead (headerState 4 0) 0x600 4 = .ok 0 ∧
    busRead (headerState 4 0) 0x520 4 = .ok 0 ∧ busRead (headerState 4 0) 0x484 4 = .ok 0x29ab5f49 := by decide +kernel

/-- V-A15 and the edges of the window. -/
theorem test_window_faults :
    busRead (headerState 4 0) 0x406 4 = .error .busError ∧ busRead (headerState 4 0) 0x404 2 = .error .busError ∧
    busRead (headerState 4 0) 0x7FC 4 = .ok 0 ∧ busRead (headerState 4 0) 0x7FC 8 = .error .busError ∧
    busRead (headerState 4 0) 0x800 4 = .error .outsideWindow ∧
    busRead (headerState 4 0) 0x3FC 4 = .error .outsideWindow := by decide +kernel

/-- V-A6: each illegal word gives ERROR at once. -/
theorem test_illegal_command_write :
    (match busWrite (headerState 4 0) 0x400 4 0x00000014 with
      | .ok t => decide (readReg t .status = 0x00000104)
      | .error _ => false) = true := by decide +kernel

/-- V-A18: a write while BUSY sets `REJ` and nothing else of `STATUS`. -/
theorem test_write_while_busy :
    (match busWrite (pendingState 4 0 .hash) 0x408 4 0xffffffff with
      | .ok t => decide (readReg t .status = 0x00002021 ∧ t.startNonce = 0)
      | .error _ => false) = true := by decide +kernel

/-! ### Header text -/

/-- V-C2, V-C4, V-C5, V-C6, V-C8. -/
theorem test_codec :
    parseHex ['0', '1', '0', '0', '0', '0', '0', '0'] = .ok [0x01000000] ∧
    parseHex ['A', 'B', 'C', 'D', 'E', 'F', '0', '1'] = .ok [0xabcdef01] ∧
    parseHex ['0', '1', '0', '0', '0', '0', '0'] = .error .invalidInput ∧
    parseHex ['0', '1', '0', '0', '0', '0', '0', 'g'] = .error .invalidInput ∧
    printWords [0xABCDEF01] = ['a', 'b', 'c', 'd', 'e', 'f', '0', '1'] := by decide +kernel

/-- V-C10, V-C12. -/
theorem test_reverse_byte_order :
    reverseByteOrder ['1', 'd', '0', '0', 'f', 'f', 'f', 'f'] = .ok ['f', 'f', 'f', 'f', '0', '0', '1', 'd'] ∧
    reverseByteOrder [] = .ok [] ∧ reverseByteOrder ['a', 'b', 'c'] = .error .invalidInput := by decide +kernel

/-! ### Witnesses: states and operands that meet the hypotheses of the obligations -/

theorem witness_ControllerTurnRunsPendingCommand :
    ∃ (s : State) (i : Instr) (rest : List Turn), s.turns = .controller :: rest ∧ s.pending = some i :=
  ⟨{ pendingState 1 0 .hash with turns := [.controller] }, .hash, [], rfl, rfl⟩

theorem witness_WrittenCommandIsExecuted :
    ∃ (s : State) (w : Word) (i : Instr) (script : List HostStmt) (rest : List Turn),
      decode w = .ok i ∧ i.wellFormed = true ∧ s.busy = false ∧ s.script = .write s.base 4 w :: script ∧
      s.turns = .host :: .controller :: rest :=
  ⟨{ headerState 1 0 with script := [.write 0x400 4 4], turns := [.host, .controller] }, 4, .search, [], [],
    by decide, rfl, rfl, rfl, rfl⟩

theorem witness_FreeTurnBelongsToAnEnabledAgent :
    ∃ s t : State, s.turns = [] ∧ step s = .next t ∧ t.pending ≠ s.pending :=
  ⟨pendingState 1 0 .prepare, _, rfl, rfl, by decide +kernel⟩

theorem controlOk_headerState : ControlOk (headerState 1 0) :=
  ⟨by decide, by decide, by decide, by decide, by decide, by decide, by decide, by decide, by decide +kernel, by decide,
    by decide +kernel⟩

theorem witness_QuiescentMachineStays :
    ∃ s : State, ControlOk s ∧ s.status.state ≠ .busy ∧ s.script = [] ∧ s.turns = [] :=
  ⟨headerState 1 0, controlOk_headerState, by decide, rfl, rfl⟩

/-- One state and word for each clause. -/
theorem witness_CommandWriteIsAcceptedDroppedOrRefused :
    (pendingState 1 0 .hash).status.state = .busy ∧ (headerState 1 0).status.state ≠ .busy ∧
    (∀ i : Instr, (0x10 : Word) ≠ encode i) ∧ (4 : Word) = encode .search :=
  ⟨rfl, by decide, by intro i; cases i <;> decide, rfl⟩

/-- The exponents at the edges of the two clauses. -/
theorem witness_PredicateFollowsTheExponent :
    (0x00000100 : Word).toNat % 256 = 0 ∧ (0xffff0001 : Word).toNat % 256 = 1 ∧ (0xffff0020 : Word).toNat % 256 = 32 ∧
    (0xffff0021 : Word).toNat % 256 = 33 := by decide

/-- In the domain at its two ends. -/
theorem witness_PrepareFillsTheJobWindow :
    (pendingState 1 0xffff0001 .prepare).inDomain ∧ (pendingState 1 0xffff0020 .prepare).inDomain :=
  ⟨⟨by decide, by decide⟩, by decide, by decide⟩

/-- Outside the domain next to its two ends. -/
theorem witness_PrepareOutsideDomainRaisesPredRange :
    ¬ (pendingState 1 0xffff0000 .prepare).inDomain ∧ ¬ (pendingState 1 0xffff0021 .prepare).inDomain :=
  ⟨fun h => absurd h.1 (by decide), fun h => absurd h.2 (by decide)⟩

/-- In the domain at its two ends. -/
theorem witness_TestChecksTheLeadingBytes :
    (pendingState 1 0xffff0001 .test).inDomain ∧ (pendingState 1 0xffff0020 .test).inDomain :=
  ⟨⟨by decide, by decide⟩, by decide, by decide⟩

/-- Outside the domain next to its two ends. -/
theorem witness_TestOutsideDomainRaisesPredRange :
    ¬ (pendingState 1 0xffff0000 .test).inDomain ∧ ¬ (pendingState 1 0xffff0021 .test).inDomain :=
  ⟨fun h => absurd h.1 (by decide), fun h => absurd h.2 (by decide)⟩

/-- One lane of four, all of four. -/
theorem witness_SearchLaunchesTheLanes :
    (∃ s : State, 1 ≤ s.concurrency.toNat ∧ s.concurrency.toNat ≤ s.numWorkers ∧ s.inDomain ∧ s.concurrency = 1) ∧
    (∃ s : State, 1 ≤ s.concurrency.toNat ∧ s.concurrency.toNat ≤ s.numWorkers ∧ s.inDomain ∧ s.concurrency = 4) :=
  ⟨⟨{ headerState 4 0xffff0020 with concurrency := 1 }, by decide, by decide, ⟨by decide, by decide⟩, rfl⟩,
    { headerState 4 0xffff0020 with concurrency := 4 }, by decide, by decide, ⟨by decide, by decide⟩, rfl⟩

theorem witness_SearchWithBadLaneCountRaisesBadConcurrency :
    (headerState 4 0).concurrency.toNat = 0 ∧
    (headerState 4 0).numWorkers < ({ headerState 4 0 with concurrency := 5 } : State).concurrency.toNat := by decide

theorem witness_SearchOutsideDomainRaisesPredRange :
    ∃ s : State, 1 ≤ s.concurrency.toNat ∧ s.concurrency.toNat ≤ s.numWorkers ∧ ¬ s.inDomain :=
  ⟨{ headerState 4 0xffff0021 with concurrency := 4 }, by decide, by decide, fun h => absurd h.2 (by decide)⟩

/-- An error of a command's execution and an error at acceptance. -/
theorem witness_ErrorKeepsTheEarlierResult :
    (∃ (i : Instr) (s t : State), s.status.state = .busy ∧ exec i s = .next t ∧ t.status.state = .error) ∧
    (∃ (s t : State) (v : Word), busWrite s s.base 4 v = .ok t ∧ t.status.state = .error) :=
  ⟨⟨.search, pendingState 4 0 .search, _, rfl, rfl, by decide +kernel⟩, headerState 1 0, _, 0x10, rfl, by decide +kernel⟩

/-- A lane in RUN in each of the three clauses. -/
theorem witness_LaneBeginChecksItsStopConditions :
    (∃ (s : State) (l : Lane), s.lanes[0]? = some l ∧ l.phase = .run ∧ 2 ^ 32 ≤ l.k.toNat ∧
      s.status.resultValid = false) ∧
    (∃ (s : State) (l : Lane), s.lanes[0]? = some l ∧ l.phase = .run ∧ l.k.toNat < 2 ^ 32 ∧
      s.status.resultValid = false) ∧
    (∃ (s : State) (l : Lane), s.lanes[0]? = some l ∧ l.phase = .run ∧ l.k.toNat < 2 ^ 32 ∧
      s.status.resultValid = true) :=
  ⟨⟨runningState { Lane.reset with phase := .run, k := 0x100000000 }, _, rfl, rfl, by decide, rfl⟩,
    ⟨runningState { Lane.reset with phase := .run, k := 0xffffffff }, _, rfl, rfl, by decide, rfl⟩,
    { runningState { Lane.reset with phase := .run } with
      status := { Status.reset with state := .busy, resultValid := true } }, _, rfl, rfl, by decide, rfl⟩

/-- Offset 7 and mask 0 pass every digest (spec/41_header_predicate.md R130, `exp = 32`). -/
theorem predicateTest_zero_mask (d : Vector Word 8) : predicateTest 7 0 d = true := by
  have hz : ∀ x : Word, x &&& 0 = 0 := fun _ => BitVec.and_zero
  have hd : d.toList.drop ((7 : Fin 8).val + 1) = [] := by simp
  rw [predicateTest, hz, hd]
  rfl

theorem hitAt_of_zero_mask (s : State) (k : Nat) (ho : jobOffset s.job = 7) (hm : jobMask s.job = 0) :
    s.hitAt k = true := by
  show predicateTest (jobOffset s.job) (jobMask s.job) _ = true
  rw [ho, hm]
  exact predicateTest_zero_mask _

/-- A hit at the first offset and, by V-H8, a miss; and the last offset of the space. -/
theorem witness_LaneTrialCountsAndPublishes :
    (∃ (s : State) (l : Lane), s.lanes[0]? = some l ∧ l.phase = .pend ∧ l.k.toNat < 2 ^ 32 ∧
      s.hitAt l.k.toNat = true ∧ s.status.resultValid = false) ∧
    (∃ (s : State) (l : Lane), s.lanes[0]? = some l ∧ l.phase = .pend ∧ l.k.toNat = 2 ^ 32 - 1 ∧
      s.hitAt l.k.toNat = true) ∧
    (∃ (s : State) (l : Lane), s.lanes[0]? = some l ∧ l.phase = .pend ∧ l.k.toNat < 2 ^ 32 ∧
      s.hitAt l.k.toNat = false) :=
  ⟨⟨runningState { Lane.reset with phase := .pend }, _, rfl, rfl, by decide, hitAt_of_zero_mask _ _ rfl rfl, rfl⟩,
    ⟨runningState { Lane.reset with phase := .pend, k := 0xffffffff }, _, rfl, rfl, by decide,
      hitAt_of_zero_mask _ _ rfl rfl⟩,
    { runningState { Lane.reset with phase := .pend } with job := jobOf 7 0x00ffffff, startNonce := 0x7c2bac1c }, _,
    rfl, rfl, by decide, by decide +kernel⟩

theorem witness_StoppedLaneTakesNoStep :
    ∃ (s : State) (i : Nat), (∀ l, s.lanes[i]? = some l → l.phase ≠ .run ∧ l.phase ≠ .pend) ∧ i < s.lanes.length :=
  ⟨headerState 1 0, 0, by intro l h; cases h; exact ⟨by decide, by decide⟩, by decide⟩

/-- Every lane stopped, and a lane in PEND. -/
theorem witness_SearchFinishesWhenEveryLaneHasStopped :
    (∃ s : State, s.pending = none ∧ s.searching = true ∧ ∀ l ∈ s.lanes, l.phase ≠ .run ∧ l.phase ≠ .pend) ∧
    (∃ s : State, s.pending = none ∧ s.searching = true ∧ ∃ l ∈ s.lanes, l.phase = .run ∨ l.phase = .pend) :=
  ⟨⟨runningState { Lane.reset with phase := .exh }, rfl, rfl, by decide +kernel⟩,
    runningState { Lane.reset with phase := .pend }, rfl, rfl, _, List.mem_cons_self, .inr rfl⟩

theorem witness_DrainCompletesAtMostOneTrialPerLane :
    ∃ (s t : State) (l l' : Lane), s.status.resultValid = true ∧ s.pending ≠ some .search ∧
      s.turns.head? ≠ some .reset ∧ s.lanes[0]? = some l ∧ t.lanes[0]? = some l' ∧ step s = .next t ∧ l' ≠ l :=
  ⟨{ runningState { Lane.reset with phase := .run } with
      status := { Status.reset with state := .busy, resultValid := true }, turns := [.lane 0] }, _, _,
    { Lane.reset with phase := .found }, rfl, by decide, by decide, rfl, rfl, rfl, by decide⟩

theorem witness_ResultIsWrittenOnce :
    ∃ s t : State, s.status.resultValid = true ∧ s.pending ≠ some .search ∧ s.turns.head? ≠ some .reset ∧
      step s = .next t :=
  ⟨{ headerState 1 0 with status := { Status.reset with state := .found, resultValid := true } }, _, rfl, by decide,
    by decide, rfl⟩

/-- Another lane's turn, the host's, and the controller's. -/
theorem witness_LaneStateIsPrivate :
    (∃ t, takeTurn (.lane 1) (headerState 4 0) = .next t) ∧ (∃ t, takeTurn .host (headerState 4 0) = .next t) ∧
    ((pendingState 4 0 .prepare).pending ≠ some .search ∧
      ∃ t, takeTurn .controller (pendingState 4 0 .prepare) = .next t) :=
  ⟨⟨_, rfl⟩, ⟨_, rfl⟩, by decide, _, rfl⟩

theorem witness_ReadsHaveNoSideEffect :
    ∃ (s : State) (addr n : Nat) (v : Word) (script : List HostStmt) (rest : List Turn),
      s.script = .read addr n :: script ∧ s.turns = .host :: rest ∧ busRead s addr n = .ok v :=
  ⟨{ headerState 4 0 with script := [.read 0x404 4], turns := [.host] }, 0x404, 4, _, [], [], rfl, rfl, rfl⟩

/-- `WAIT` while BUSY and while not. -/
theorem witness_WaitPollsUntilNotBusy :
    (∃ s : State, s.script = [.wait] ∧ s.turns = [.host] ∧ s.status.state = .busy) ∧
    (∃ s : State, s.script = [.wait] ∧ s.turns = [.host] ∧ s.status.state ≠ .busy) :=
  ⟨⟨{ pendingState 4 0 .hash with script := [.wait], turns := [.host] }, rfl, rfl, rfl⟩,
    { headerState 4 0 with script := [.wait], turns := [.host] }, rfl, rfl, by decide⟩

theorem witness_DataRegisterReadsBackAsWritten :
    isDataReg (.hdr 19) = true ∧ (headerState 4 0).status.state ≠ .busy := by decide

theorem witness_DataWriteWhileBusyIsDropped :
    isDataReg (.digest 7) = true ∧ (pendingState 4 0 .hash).status.state = .busy := by decide

/-- A read-only register; the first reserved offset past the counters of 4 lanes, and the last of the window. -/
theorem witness_ReservedAndReadOnlyOffsets :
    isReadOnlyReg (.job 12) = true ∧ 0x100 + 8 * (headerState 4 0).numWorkers ≤ 0x120 ∧ 0x120 % 4 = 0 ∧
    0x3FC < 0x400 ∧ 0x3FC % 4 = 0 := by decide

/-- The first and the last address of the window, its last word unaligned, and the addresses next to it. -/
theorem witness_OnlyAlignedWordAccessesSucceed :
    (headerState 4 0).base = 0x400 ∧ (0x7FC - 0x400) % 4 = 0 ∧ 0x7FC < 0x400 + 0x400 ∧ (0x7FF - 0x400) % 4 ≠ 0 ∧
    0x3FF < 0x400 ∧ 0x400 + 0x400 ≤ 0x800 := by decide

theorem witness_LaneMasksShowThePhases : (headerState 32 0).numWorkers ≤ 32 ∧ (headerState 1 0).numWorkers ≤ 32 := by
  decide

theorem witness_CountersReadInHalves :
    (headerState 32 0).numWorkers ≤ 32 ∧ (headerState 32 0).lanes[31]? = some Lane.reset := by decide +kernel

theorem witness_LoadHeaderFillsTheHeaderRegisters :
    ∃ (s : State) (text : List Char) (words : List Word) (stmts script : List HostStmt) (rest : List Turn),
      s.status.state ≠ .busy ∧ parseHeader text = .ok words ∧ stmtsLoadHdr s.base text = .ok stmts ∧
      s.script = stmts ++ script ∧ s.turns = List.replicate 20 .host ++ rest :=
  ⟨{ headerState 4 0 with
      script := headerWrites 0x400 genesisHdr.toList, turns := List.replicate 20 .host },
    printWords genesisHdr.toList, genesisHdr.toList, headerWrites 0x400 genesisHdr.toList, [], [], by decide,
    by decide +kernel, by decide +kernel, by decide +kernel, by decide +kernel⟩

theorem witness_ParseAndPrintRoundTrip :
    parseHex ['A', 'B', 'C', 'D', 'E', 'F', '0', '1'] = .ok [0xabcdef01] := by decide +kernel

/-- Two pairs, so that the first and the last place of the formula differ; and the empty text. -/
theorem witness_ReversingByteOrderTwiceIsIdentity :
    reverseByteOrder ['1', 'd', '0', '0'] = .ok ['0', '0', '1', 'd'] ∧ reverseByteOrder [] = .ok [] := by decide +kernel

theorem witness_ResetInputClearsTheBlock : ∃ (s : State) (rest : List Turn), s.turns = .reset :: rest :=
  ⟨{ runningState { Lane.reset with phase := .pend } with turns := [.reset] }, [], rfl⟩

theorem controlOk_running (l : Lane) (turns : List Turn) (v : Bool) :
    ControlOk { runningState l with
      turns := turns, status := { (runningState l).status with resultValid := v }, resultNonce := 0 } :=
  ⟨Nat.le_refl 1, by show 1 ≤ 32; decide, by show 0x400 % 0x400 = 0; decide,
    ⟨fun _ => .inr rfl, fun _ => rfl⟩,
    ⟨fun h => absurd rfl h, fun h => absurd (show EngineState.busy = .error from h) (by decide)⟩,
    fun h => absurd rfl h, fun h => absurd rfl h, fun _ => rfl, fun h => absurd (show true = false from h) (by decide),
    fun _ => rfl, by show (7 : Word).toNat ≤ 7; decide⟩

/-- The search just launched: one lane in RUN at offset 0. -/
theorem searchOk_launched (turns : List Turn) :
    SearchOk { runningState { Lane.reset with phase := .run } with turns := turns } := by
  refine ⟨Nat.le_refl 1, Nat.le_refl 1, ?_, ?_, by simp [runningState, pendingState], ?_⟩
  · intro i l h (hi : 1 ≤ i)
    match i, hi with
    | i + 1, _ => simp [runningState] at h
  · intro i l h (hi : i < 1)
    obtain rfl : i = 0 := by omega
    cases h
    refine ⟨by simp, rfl, by show 0 < 2 ^ 32 + 1; decide, ?_, ?_, ?_, ?_, .inl rfl⟩
    all_goals simp [Lane.reset]
  · simp [runningState, pendingState, headerState, State.resetOf, Status.reset, acceptLegal]

/-- The search with its one lane stopped on the hit at offset 0 and the result published. -/
def foundState : State :=
  { runningState { Lane.reset with phase := .found, hashCount := 1 } with
    turns := [.controller]
    status := { (runningState Lane.reset).status with resultValid := true }, resultNonce := 0 }

theorem controlOk_foundState : ControlOk foundState :=
  controlOk_running { Lane.reset with phase := .found, hashCount := 1 } [.controller] true

theorem searchOk_foundState : SearchOk foundState := by
  have hh : foundState.hitAt 0 = true := hitAt_of_zero_mask _ _ rfl rfl
  refine ⟨by decide, by decide, ?_, ?_, by simp [foundState], ?_⟩
  · intro i l h (hi : 1 ≤ i)
    match i, hi with
    | i + 1, _ => simp [foundState, runningState] at h
  · intro i l h (hi : i < 1)
    obtain rfl : i = 0 := by omega
    cases h
    refine ⟨by decide, by decide, by decide, ?_, ?_, ?_, ?_, .inr ⟨rfl, hh, by decide⟩⟩
    all_goals simp [Lane.reset]
  · intro _
    exact ⟨0, _, rfl, by decide, rfl, by decide +kernel, hh, by decide⟩

theorem witness_StepKeepsControlOk :
    ∃ s t : State, ControlOk s ∧ step s = .next t ∧ t.status.state ≠ s.status.state :=
  ⟨foundState, _, controlOk_foundState, rfl, by decide +kernel⟩

/-- A search that goes on (its lane begins a trial) satisfies the hypotheses, and so does its end. -/
theorem witness_StepKeepsSearchOk :
    ∃ s t : State, ControlOk s ∧ s.searching = true ∧ SearchOk s ∧ step s = .next t ∧ t.searching = true :=
  ⟨{ runningState { Lane.reset with phase := .run } with turns := [.lane 0] }, _,
    controlOk_running { Lane.reset with phase := .run } [.lane 0] false, rfl, searchOk_launched _, rfl, rfl⟩

theorem outcomeOk_foundState : OutcomeOk foundState :=
  ⟨fun h => absurd h (by decide +kernel), fun h => absurd h (by decide +kernel), fun h => absurd h (by decide +kernel)⟩

/-- A step that ends a search FOUND. -/
theorem witness_StepKeepsOutcomeOk :
    ∃ s t : State, ControlOk s ∧ (s.searching = true → SearchOk s) ∧ OutcomeOk s ∧ step s = .next t ∧
      t.status.state = .found :=
  ⟨foundState, _, controlOk_foundState, fun _ => searchOk_foundState, outcomeOk_foundState, rfl, by decide +kernel⟩

/-- A host turn while BUSY, and a step of a running search. -/
theorem witness_SearchOperandsAreImmutable :
    (∃ s t : State, s.status.state = .busy ∧ takeTurn .host s = .next t) ∧
    (∃ s t : State, ControlOk s ∧ s.searching = true ∧ s.turns.head? ≠ some .reset ∧ step s = .next t) :=
  ⟨⟨pendingState 1 0 .hash, _, rfl, rfl⟩, foundState, _, controlOk_foundState, rfl, by decide, rfl⟩

theorem witness_JobChangesOnlyByCommands :
    ∃ s t : State, s.pending = none ∧ s.turns.head? ≠ some .reset ∧ step s = .next t :=
  ⟨foundState, _, rfl, by decide, rfl⟩

theorem witness_OnlyTestWritesPredHit :
    ∃ s t : State, s.pending ≠ some .test ∧ s.turns.head? ≠ some .reset ∧ step s = .next t :=
  ⟨pendingState 1 0 .prepare, _, by decide, by decide, rfl⟩

/-- `REJ` cleared by a command accepted, and set by a write to a data register while BUSY. -/
theorem witness_RejIsStickyUntilACommandIsAccepted :
    (∃ s t : State, s.turns.head? ≠ some .reset ∧ step s = .next t ∧ s.status.rej = true ∧ t.status.rej = false) ∧
    (∃ s t : State, s.turns.head? ≠ some .reset ∧ step s = .next t ∧ s.status.rej = false ∧ t.status.rej = true) :=
  ⟨⟨{ headerState 1 0 with
      status := { Status.reset with rej := true }, script := [.write 0x400 4 1], turns := [.host] }, _, by decide, rfl,
      rfl, by decide +kernel⟩,
    { pendingState 1 0 .hash with script := [.write 0x408 4 1], turns := [.host] }, _, by decide, rfl, rfl,
    by decide +kernel⟩

theorem witness_SearchEndsWithinItsStepBound :
    ∃ s : State, ControlOk s ∧ (s.searching = true → SearchOk s) ∧ s.script = [] ∧ s.turns = [] ∧
      s.status.state = .busy :=
  ⟨{ runningState { Lane.reset with phase := .run } with turns := [] },
    controlOk_running { Lane.reset with phase := .run } [] false, fun _ => searchOk_launched _, rfl, rfl, rfl⟩

/-- A schedule in which the controller and every lane come again and again. -/
def fairSchedule (n : Nat) : Turn := match n.unpair.1 with
  | 0 => .controller
  | i + 1 => .lane i

theorem fairSchedule_fair (s : State) : WeaklyFair fairSchedule s := by
  intro a hh hr n _
  cases a with
  | host => exact absurd rfl hh
  | reset => exact absurd rfl hr
  | controller => exact ⟨Nat.pair 0 n, Nat.right_le_pair 0 n, by simp [fairSchedule]⟩
  | lane i => exact ⟨Nat.pair (i + 1) n, Nat.right_le_pair (i + 1) n, by simp [fairSchedule]⟩

theorem witness_SearchEndsUnderWeakFairness :
    ∃ (s : State) (σ : Nat → Turn), ControlOk s ∧ (s.searching = true → SearchOk s) ∧ (∀ x ∈ s.script, x = .wait) ∧
      (∀ n, σ n ≠ .reset) ∧ WeaklyFair σ s ∧ s.status.state = .busy :=
  ⟨{ runningState { Lane.reset with phase := .run } with turns := [] }, fairSchedule,
    controlOk_running { Lane.reset with phase := .run } [] false, fun _ => searchOk_launched _,
    by intro x hx; simp [runningState, pendingState, headerState, State.resetOf] at hx,
    by intro n; unfold fairSchedule; split <;> simp, fairSchedule_fair _, rfl⟩

/-- SEARCH accepted on a block of 4 lanes, `c = 3`, header G32: the launched search has a hit at every offset. -/
def acceptedSearch : State := { pendingState 4 0xffff0020 .search with concurrency := 3 }

theorem hitAt_launched (t : State) (k : Nat) (h : exec .search acceptedSearch = .next t) : t.hitAt k = true := by
  rcases execSearch_cases acceptedSearch with ⟨hc, _⟩ | ⟨_, hp, _⟩ | ⟨_, p, hp, e⟩
  · exact absurd hc (by decide)
  · exact absurd hp (by decide)
  · rw [exec, e] at h
    have hp' : p = { offset := 7, mask := 0 } := by
      have : predicateOf acceptedSearch.hdr[18] = some { offset := 7, mask := 0 } := by decide
      rw [this] at hp; cases hp; rfl
    cases h
    subst hp'
    refine hitAt_of_zero_mask _ _ ?_ ?_
    · show jobOffset (jobWithPredicate _ (BitVec.ofNat 32 7) 0) = 7
      simp [jobOffset, jobWithPredicate]
    · show jobMask (jobWithPredicate _ (BitVec.ofNat 32 7) 0) = 0
      simp [jobMask, jobWithPredicate]

theorem controlOk_acceptedSearch : ControlOk acceptedSearch :=
  ⟨by decide, by decide, by decide, by decide, by decide, by decide, by decide, by decide, by decide +kernel, by decide,
    by decide +kernel⟩

theorem witness_EveryFirstHitCanBeReported :
    ∃ (s t : State) (k : Nat), ControlOk s ∧ s.status.state = .busy ∧ 1 ≤ s.concurrency.toNat ∧
      s.concurrency.toNat ≤ s.numWorkers ∧ s.inDomain ∧ exec .search s = .next t ∧ t.firstHitOfShare k :=
  ⟨acceptedSearch, _, 2, controlOk_acceptedSearch, rfl, by decide, by decide, ⟨by decide, by decide⟩, rfl, by decide,
    hitAt_launched _ _ rfl, by
      intro k' h1 (h2 : k' % 3 = 2 % 3)
      omega⟩

theorem witness_ReportedNonceIsAFirstHit :
    ∃ s t : State, ControlOk s ∧ SearchOk s ∧ s.searching = true ∧ s.concurrency.toNat = 1 ∧
      s.turns.head? ≠ some .reset ∧ step s = .next t ∧ t.status.state = .found :=
  ⟨foundState, _, controlOk_foundState, searchOk_foundState, rfl, rfl, by decide, rfl, by decide +kernel⟩

theorem witness_OneLaneSearchReportsTheSmallestHit :
    ∃ s t : State, ControlOk s ∧ SearchOk s ∧ s.searching = true ∧ s.concurrency.toNat = 1 ∧
      s.turns.head? ≠ some .reset ∧ step s = .next t ∧ t.status.state = .found := witness_ReportedNonceIsAFirstHit

theorem jobOfHeader_foundState : foundState.jobOfHeader :=
  ⟨⟨by decide, by decide⟩, ⟨by decide +kernel, by decide +kernel⟩, by decide +kernel, by decide +kernel⟩

/-- The state before the finish step of a search that ends FOUND. -/
theorem witness_HitsAreNoncesThatPassTheHeader :
    ∃ s t : State, ControlOk s ∧ SearchOk s ∧ s.jobOfHeader ∧ s.searching = true ∧ s.turns.head? ≠ some .reset ∧
      step s = .next t ∧ t.status.state = .found :=
  ⟨foundState, _, controlOk_foundState, searchOk_foundState, jobOfHeader_foundState, rfl, by decide, rfl,
    by decide +kernel⟩

/-- A lane's step of a running search. -/
theorem witness_StepKeepsJobOfHeader :
    ∃ s t : State, ControlOk s ∧ s.searching = true ∧ s.jobOfHeader ∧ step s = .next t ∧ t.searching = true :=
  ⟨{ runningState { Lane.reset with phase := .run } with turns := [.lane 0] }, _,
    controlOk_running { Lane.reset with phase := .run } [.lane 0] false, rfl, jobOfHeader_foundState, rfl, rfl⟩

/-- The end of a search; one that ends EXHAUSTED takes `2^32` hashes, which no test evaluates. -/
theorem witness_ExhaustedSearchTriedEveryNonce :
    ∃ s t : State, ControlOk s ∧ SearchOk s ∧ s.searching = true ∧ s.turns.head? ≠ some .reset ∧ step s = .next t ∧
      t.searching = false :=
  ⟨foundState, _, controlOk_foundState, searchOk_foundState, rfl, by decide, rfl, rfl⟩

theorem witness_LockstepSearchReportsTheSmallestHit :
    ∃ (s t : State) (k : Nat), ControlOk s ∧ s.status.state = .busy ∧ 1 ≤ s.concurrency.toNat ∧
      s.concurrency.toNat ≤ s.numWorkers ∧ s.inDomain ∧ exec .search s = .next t ∧ k < 2 ^ 32 ∧ t.hitAt k = true ∧
      ∀ k', k' < k → t.hitAt k' = false :=
  ⟨acceptedSearch, _, 0, controlOk_acceptedSearch, rfl, by decide, by decide, ⟨by decide, by decide⟩, rfl, by decide,
    hitAt_launched _ _ rfl, by omega⟩

end Sys2Proof.Tests
end

section
/-! Proofs of the scope statements (spec/00_scope.md R13): whose step a step of the machine is. -/

namespace Sys2Proof.Proofs

open Sys2Proof.Machine

/-- A turn fixed in advance is the one taken, and is used up (spec/00_scope.md R13). -/
theorem step_of_turns_cons {s : State} {a : Turn} {rest : List Turn} (h : s.turns = a :: rest) :
    step s = takeTurn a { s with turns := rest } := by
  simp only [step, nextStep, h]

/-- The controller executes the command that is pending (spec/10_state.md R40). -/
theorem takeTurn_controller_of_pending {s : State} {i : Instr} (h : s.pending = some i) :
    takeTurn .controller s = exec i s := by
  simp only [takeTurn, controllerStep, h]

/-- Settles O4: the fixed turn is the controller's, and using it up leaves the command pending. -/
theorem controllerTurnRunsPendingCommand : Obligations.ControllerTurnRunsPendingCommand := by
  intro s i rest hturns hpending
  calc step s = takeTurn .controller { s with turns := rest } := step_of_turns_cons hturns
    _ = exec i { s with turns := rest } := takeTurn_controller_of_pending hpending

/-- Settles O7, by the cases of a step: with no turn fixed in advance it is a free turn, which is an enabled agent's, or
there is no free turn, and then no agent is enabled. -/
theorem freeTurnBelongsToAnEnabledAgent : Obligations.FreeTurnBelongsToAnEnabledAgent := by
  intro s t hturns hstep
  obtain ⟨a, rest, hfixed, -⟩ | ⟨-, a, hfree, htake⟩ | ⟨-, hnone, hsame⟩ := step_cases hstep
  · rw [hturns] at hfixed
    cases hfixed
  · exact .inr ⟨a, freeTurn_enabled hfree, htake⟩
  · exact .inl ⟨hsame, freeTurn_none hnone⟩

end Sys2Proof.Proofs
end

section
/-! What one step can do to the block, in named cases: every statement of 10_state.md about a step is a case split on
them. -/

namespace Sys2Proof.Proofs

open Sys2Proof.Machine

/-- What the host's turn makes of `s`: it takes its statement from the script, and at most one write takes effect
(spec/20_memory.md R62 to R66, spec/30_encoding.md R84). -/
inductive HostOp (s : State) : State → Prop
  | quiet (script : List HostStmt) (lastRead : Option Word) :
      HostOp s { s with script := script, lastRead := lastRead }
  | dropped (r : RegName) (v : Word) (script : List HostStmt) (hreg : r = .cmd ∨ isDataReg r = true)
      (hscript : s.script = .write (s.base + offsetOf r) 4 v :: script) (hbusy : s.status.state = .busy) :
      HostOp s (dropWrite { s with script := script })
  | accepted (i : Instr) (v : Word) (script : List HostStmt) (hscript : s.script = .write s.base 4 v :: script)
      (hidle : s.status.state ≠ .busy) : HostOp s (acceptLegal i { s with script := script })
  | refused (v : Word) (script : List HostStmt) (hscript : s.script = .write s.base 4 v :: script)
      (hidle : s.status.state ≠ .busy) : HostOp s (acceptIllegal { s with script := script })
  | written (script : List HostStmt) (sn c : Word) (hdr : Vector Word 20) (digest : Vector Word 8)
      (hidle : s.status.state ≠ .busy) :
      HostOp s { s with script := script, startNonce := sn, concurrency := c, hdr := hdr, digest := digest }

/-- What the turn of the controller or of a lane makes of `s`, where it has an enabled step (spec/10_state.md R40,
spec/43_search.md R181 to R186). -/
inductive AgentOp (s : State) : State → Prop
  | executed (i : Instr) (t : State) (hpending : s.pending = some i) (hexec : exec i s = .next t) : AgentOp s t
  | finished (hpending : s.pending = none) (hfinish : s.canFinish = true) : AgentOp s (finish s)
  | laneMoved (i : Nat) (l l' : Lane) (hlane : s.lanes[i]? = some l) (hactive : l.active = true) :
      AgentOp s (s.setLane i l')
  | lanePublished (i : Nat) (l l' : Lane) (n : Word) (hlane : s.lanes[i]? = some l) (hactive : l.active = true)
      (hinvalid : s.status.resultValid = false) :
      AgentOp s { s with
        lanes := s.lanes.set i l', resultNonce := n, status := { s.status with resultValid := true } }

/-- An offset below the arrays is its register's (spec/20_memory.md R71). -/
theorem offsetOf_of_controlRegAt {off : Nat} {r : RegName} (h : controlRegAt off = some r) : offsetOf r = off := by
  unfold controlRegAt at h
  split_ifs at h <;> cases h <;> simp only [offsetOf, *]

/-- An offset in an array of registers is that of the register found there (spec/20_memory.md R71). -/
theorem offsetOf_of_arrayReg {start stride n off : Nat} {reg : Fin n → RegName} {r : RegName}
    (hreg : ∀ i, offsetOf (reg i) = start + stride * i.val)
    (h : (arrayIndex start stride n off).map reg = some r) : offsetOf r = off := by
  obtain ⟨i, hi, rfl⟩ := Option.map_eq_some_iff.mp h
  unfold arrayIndex at hi
  split at hi
  case isFalse => cases hi
  case isTrue hoff =>
    obtain ⟨hstart, hmod, hlt⟩ := hoff
    cases hi
    have hdiv := Nat.mul_div_cancel' (Nat.dvd_of_mod_eq_zero hmod)
    rw [hreg]
    simp only
    omega

/-- An offset of the map is its register's (spec/20_memory.md R71). -/
theorem offsetOf_of_regAt {off : Nat} {r : RegName} (h : regAt off = some r) : offsetOf r = off := by
  obtain h | ⟨-, h⟩ := (Option.orElse_eq_some _ _ _).mp h
  · exact offsetOf_of_controlRegAt h
  obtain h | ⟨-, h⟩ := (Option.orElse_eq_some _ _ _).mp h
  · exact offsetOf_of_arrayReg (fun _ => rfl) h
  obtain h | ⟨-, h⟩ := (Option.orElse_eq_some _ _ _).mp h
  · exact offsetOf_of_arrayReg (fun _ => rfl) h
  obtain h | ⟨-, h⟩ := (Option.orElse_eq_some _ _ _).mp h
  · exact offsetOf_of_arrayReg (fun _ => rfl) h
  obtain h | ⟨-, h⟩ := (Option.orElse_eq_some _ _ _).mp h
  · exact offsetOf_of_arrayReg (fun _ => rfl) h
  · exact offsetOf_of_arrayReg (fun _ => rfl) h

/-- The host's turn is one of its operations: the register its write reaches decides which. -/
theorem hostOp_of_hostStep {s t : State} (h : hostStep s = .next t) : HostOp s t := by
  obtain ⟨-, rfl⟩ | ⟨script, v, rfl⟩ | ⟨addr, n, v, script, hscript, hwrite⟩ := hostStep_cases h
  · exact .quiet _ _
  · exact .quiet script (some v)
  obtain ⟨rfl, hbase, -, -, ⟨r, hreg, rfl⟩ | ⟨-, rfl⟩⟩ := busWrite_cases hwrite
  case inr => exact .quiet script _
  have haddr : s.base + offsetOf r = addr := by
    have := offsetOf_of_regAt hreg
    simp only at this hbase
    omega
  subst haddr
  obtain ⟨-, hw⟩ | ⟨rfl, hw⟩ | ⟨hdata, hbusy, hw⟩ | ⟨-, hidle, sn, c, hdr, d, hw⟩ :=
    writeReg_cases { s with script := script } r v <;> rw [hw]
  · exact .quiet script _
  · obtain ⟨hbusy, ha⟩ | ⟨hidle, i, -, ha⟩ | ⟨hidle, -, ha⟩ :=
      acceptCommand_cases v { s with script := script } <;> rw [ha]
    · exact .dropped _ v script (.inl rfl) hscript (busy_eq_true.mp hbusy)
    · exact .accepted i v script hscript (busy_eq_false.mp hidle)
    · exact .refused v script hscript (busy_eq_false.mp hidle)
  · exact .dropped r v script (.inr hdata) hscript (busy_eq_true.mp hbusy)
  · exact .written script sn c hdr d (busy_eq_false.mp hidle)

/-- The controller's turn changes nothing, or executes the pending command, or finishes the search. -/
theorem agentOp_of_controllerStep {s t : State} (h : controllerStep s = .next t) : t = s ∨ AgentOp s t := by
  obtain ⟨i, hpending, hc⟩ | ⟨hpending, hfinish, hc⟩ | ⟨-, -, hc⟩ := controllerStep_cases s <;> rw [hc] at h
  · exact .inr (.executed i t hpending h)
  · cases h
    exact .inr (.finished hpending hfinish)
  · cases h
    exact .inl rfl

/-- A lane's turn changes nothing, or moves its lane, with a publish where its trial is the first hit. -/
theorem agentOp_laneStep (i : Nat) (s : State) : laneStep i s = s ∨ AgentOp s (laneStep i s) := by
  obtain ⟨-, hl⟩ | ⟨l, hlane, hrun, hl⟩ | ⟨l, hlane, hpend, hl⟩ := laneStep_cases i s
  · exact .inl hl
  · rw [hl]
    exact .inr (.laneMoved i l _ hlane (active_eq_true.mpr (.inl hrun)))
  · have hactive : l.active = true := active_eq_true.mpr (.inr hpend)
    rw [hl]
    right
    obtain ⟨-, hc⟩ | ⟨-, hc⟩ := completeStep_cases i l s <;> rw [hc]
    · obtain ⟨-, hp⟩ | ⟨hinvalid, hp⟩ := publish_cases (trialNonce s.startNonce l.k) s <;> rw [hp]
      · exact .laneMoved i l _ hlane hactive
      · exact .lanePublished i l _ _ hlane hactive hinvalid
    · exact .laneMoved i l _ hlane hactive

/-- What one turn makes of `s`: a host's operation, an agent's, or a reset. -/
theorem takeTurn_ops {a : Turn} {s t : State} (h : takeTurn a s = .next t) :
    HostOp s t ∨ AgentOp s t ∨ (a = .reset ∧ t = resetInput s) := by
  have hstay : HostOp s s := .quiet s.script s.lastRead
  cases a with
  | host => exact .inl (hostOp_of_hostStep h)
  | controller =>
    obtain rfl | hop := agentOp_of_controllerStep h
    · exact .inl hstay
    · exact .inr (.inl hop)
  | lane i =>
    cases h
    obtain heq | hop := agentOp_laneStep i s
    · rw [heq]
      exact .inl hstay
    · exact .inr (.inl hop)
  | reset =>
    cases h
    exact .inr (.inr ⟨rfl, rfl⟩)

/-- What one step of the machine makes of `s`, its turn or its choice used up (spec/00_scope.md R13): a free turn is
never a reset. -/
theorem step_ops {s t : State} (h : step s = .next t) :
    ∃ turns choices, HostOp { s with turns := turns, choices := choices } t ∨
      AgentOp { s with turns := turns, choices := choices } t ∨
      (s.turns.head? = some .reset ∧ t = resetInput { s with turns := turns, choices := choices }) := by
  obtain ⟨a, rest, hturns, htake⟩ | ⟨-, a, hfree, htake⟩ | ⟨-, -, rfl⟩ := step_cases h
  · refine ⟨rest, s.choices, ?_⟩
    obtain hop | hop | ⟨rfl, rfl⟩ := takeTurn_ops htake
    · exact .inl hop
    · exact .inr (.inl hop)
    · exact .inr (.inr ⟨by rw [hturns]; rfl, rfl⟩)
  · refine ⟨s.turns, s.choices + 1, ?_⟩
    obtain hop | hop | ⟨rfl, -⟩ := takeTurn_ops htake
    · exact .inl hop
    · exact .inr (.inl hop)
    · exact absurd (freeTurn_enabled hfree) (by simp [turnEnabled])
  · exact ⟨t.turns, t.choices, .inl (.quiet _ _)⟩

/-- A step that is no reset is the operation of the host or of an agent. -/
theorem step_ops_of_no_reset {s t : State} (h : step s = .next t) (hreset : s.turns.head? ≠ some .reset) :
    ∃ turns choices, HostOp { s with turns := turns, choices := choices } t ∨
      AgentOp { s with turns := turns, choices := choices } t := by
  obtain ⟨turns, choices, hop | hop | ⟨hhead, -⟩⟩ := step_ops h
  · exact ⟨turns, choices, .inl hop⟩
  · exact ⟨turns, choices, .inr hop⟩
  · exact absurd hhead hreset

/-! ### What the execution of a command can do -/

/-- The exponent of a header's word 18 is its low byte (spec/41_header_predicate.md R122, R123). -/
theorem targetExponent_bswap32 (w : Word) : (targetExponent (bswap32 w)).toNat = w.toNat % 256 := by
  have hbyte : targetExponent (bswap32 w) = w.extractLsb' 0 8 := by
    ext i hi
    unfold targetExponent bswap32
    rw [BitVec.getElem_extractLsb', BitVec.getLsbD_append, BitVec.getLsbD_append, BitVec.getLsbD_append]
    simp [byteOf, hi, show ¬ 24 + i < 8 by omega, show ¬ 24 + i - 8 < 8 by omega,
      show ¬ 24 + i - 8 - 8 < 8 by omega, show 24 + i - 8 - 8 - 8 = i by omega]
  rw [hbyte, BitVec.extractLsb'_toNat, Nat.shiftRight_zero]

/-- A mask of `n <= 3` low bytes (spec/41_header_predicate.md R127). -/
theorem predicateMask_toNat (lb : Nat) : (predicateMask lb).toNat = 2 ^ (8 * (lb % 4)) - 1 := by
  have hlt : lb % 4 < 4 := Nat.mod_lt _ (by decide)
  unfold predicateMask
  generalize lb % 4 = n at hlt
  interval_cases n <;> decide

@[simp] theorem jobWithPredicate_offset (job : Vector Word 13) (o m : Word) : (jobWithPredicate job o m)[11] = o := by
  simp [jobWithPredicate]

@[simp] theorem jobWithPredicate_mask (job : Vector Word 13) (o m : Word) : (jobWithPredicate job o m)[12] = m := by
  simp [jobWithPredicate]

/-- Where the predicate of `HDR[18]` is derived, the exponent is in the domain and a job window with its words in
places 11 and 12 holds it (spec/41_header_predicate.md R125 to R128). -/
theorem holdsPredicate_of_predicateOf {s : State} {p : HashPredicate} (h : predicateOf s.hdr[18] = some p)
    (job : Vector Word 13) :
    s.inDomain ∧ HoldsPredicate s (jobWithPredicate job (BitVec.ofNat 32 p.offset.val) p.mask) := by
  simp only [predicateOf, leadingBytes, targetExponent_bswap32] at h
  split at h
  case isTrue => cases h
  case isFalse hdom =>
    cases h
    have hlb : ((32 : Int) - ((s.hdr[18].toNat % 256 : Nat) : Int)).toNat = 32 - s.exponent := by
      simp only [State.exponent]
      omega
    refine ⟨?_, ?_, ?_⟩
    · simp only [State.inDomain, State.exponent]
      omega
    · simp only [jobWithPredicate_offset, hlb, BitVec.toNat_ofNat]
      omega
    · simp only [jobWithPredicate_mask, hlb, predicateMask_toNat]

/-- The job window that a command derives from the header holds its tail words and its midstate (spec/42_sha256d.md
R159), whatever predicate words it writes besides. -/
theorem hashesHeader_deriveMidstate (s : State) (o m : Word) :
    HashesHeader s (jobWithPredicate (deriveMidstate s).job o m) := by
  refine ⟨?_, ?_⟩ <;> ext i hi <;> interval_cases i <;> rfl

/-- The outcomes of a command's execution: it completes, raises an error, or launches a search
(spec/42_sha256d.md R160, R161, spec/41_header_predicate.md R132, spec/43_search.md R178). -/
inductive ExecOp (s : State) : Instr → State → Prop
  | completed (i : Instr) (job : Vector Word 13) (digest : Vector Word 8) (predHit : Bool) (hsearch : i ≠ .search)
      (htest : i ≠ .test → predHit = s.status.predHit) (hoffset : s.job[11].toNat ≤ 7 → job[11].toNat ≤ 7) :
      ExecOp s i { s with
        pending := none, job := job, digest := digest
        status := { s.status with state := .idle, predHit := predHit } }
  | raised (i : Instr) (code : ErrCode) (job : Vector Word 13) (predHit : Bool) (hcode : code ≠ .none)
      (htest : i ≠ .test → predHit = s.status.predHit) (hoffset : s.job[11].toNat ≤ 7 → job[11].toNat ≤ 7) :
      ExecOp s i { s with
        pending := none, job := job
        status := { s.status with state := .error, err := code, predHit := predHit } }
  | launched (job : Vector Word 13) (hdomain : s.inDomain) (hhashes : HashesHeader s job)
      (hpredicate : HoldsPredicate s job) :
      ExecOp s .search { s with
        pending := none, job := job, resultNonce := 0
        lanes := s.lanes.mapIdx (launchLane s.concurrency.toNat), searching := true
        status := { s.status with resultValid := false } }

/-- The predicate offset that a command writes is 0 to 7 (spec/10_state.md R38). -/
theorem jobWithPredicate_offset_le (job : Vector Word 13) (o : Fin 8) (m : Word) :
    (jobWithPredicate job (BitVec.ofNat 32 o.val) m)[11].toNat ≤ 7 := by
  rw [jobWithPredicate_offset, BitVec.toNat_ofNat]
  omega

/-- Each command's execution has one of the outcomes. -/
theorem execOp_of_exec {i : Instr} {s t : State} (h : exec i s = .next t) : ExecOp s i t := by
  cases i with
  | prepare =>
    obtain ⟨p, -, hp⟩ | ⟨-, hp⟩ := execPrepare_cases s <;> cases hp.symm.trans h
    · exact .completed _ _ s.digest _ (by decide) (fun _ => rfl) fun _ => jobWithPredicate_offset_le _ _ _
    · exact .raised _ _ _ _ (by decide) (fun _ => rfl) fun _ => by simp
  | hash =>
    cases (execHash_eq s).symm.trans h
    exact .completed _ _ _ _ (by decide) (fun _ => rfl) id
  | test =>
    obtain ⟨p, _, -, rfl, ht⟩ | ⟨-, ht⟩ := execTest_cases s <;> cases ht.symm.trans h
    · exact .completed _ _ s.digest _ (by decide) (fun hne => absurd rfl hne) fun _ => jobWithPredicate_offset_le _ _ _
    · exact .raised _ _ _ _ (by decide) (fun hne => absurd rfl hne) fun _ => by simp
  | search =>
    obtain ⟨-, hs⟩ | ⟨-, -, hs⟩ | ⟨-, p, hp, hs⟩ := execSearch_cases s <;> cases hs.symm.trans h
    · exact .raised _ _ s.job _ (by decide) (fun _ => rfl) id
    · exact .raised _ _ _ _ (by decide) (fun _ => rfl) fun _ => by simp
    · obtain ⟨hdomain, hpredicate⟩ := holdsPredicate_of_predicateOf hp (deriveMidstate s).job
      exact .launched _ hdomain (hashesHeader_deriveMidstate s _ _) hpredicate

/-! ### The control and status invariant -/

/-- The invariant does not speak of the model's own fields. -/
theorem controlOk_outside {s : State} (h : ControlOk s) (script : List HostStmt) (turns : List Turn) (choices : Nat)
    (lastRead : Option Word) :
    ControlOk { s with script := script, turns := turns, choices := choices, lastRead := lastRead } :=
  { h with }

/-- A lane in RUN or PEND belongs to a running search (spec/10_state.md R41). -/
theorem searching_of_active {s : State} (h : ControlOk s) {i : Nat} {l : Lane} (hlane : s.lanes[i]? = some l)
    (hactive : l.active = true) : s.searching = true := by
  by_contra hs
  have := h.lanes_stopped (by simpa using hs) l (List.mem_of_getElem? hlane)
  simp [this] at hactive

/-- Outside BUSY nothing is pending and no search runs (spec/10_state.md R23). -/
theorem idle_of_not_busy {s : State} (h : ControlOk s) (hidle : s.status.state ≠ .busy) :
    s.pending = none ∧ s.searching = false := by
  have := mt h.busy_iff.mpr hidle
  simpa using this

/-- With a command pending the block is BUSY, no search runs and no error code is held. -/
theorem busy_of_pending {s : State} (h : ControlOk s) {i : Instr} (hpending : s.pending = some i) :
    s.status.state = .busy ∧ s.searching = false ∧ s.status.op = some i ∧ s.status.err = .none := by
  have hsome : s.pending ≠ none := by simp [hpending]
  have hbusy := h.busy_iff.mpr (.inl hsome)
  refine ⟨hbusy, h.pending_alone hsome, (h.op_pending hsome).trans hpending, ?_⟩
  by_contra herr
  simp [h.error_iff.mp herr] at hbusy

/-- While a search runs the block is BUSY, nothing is pending and no error code is held. -/
theorem busy_of_searching {s : State} (h : ControlOk s) (hs : s.searching = true) :
    s.status.state = .busy ∧ s.pending = none ∧ s.status.err = .none := by
  have hbusy := h.busy_iff.mpr (.inr hs)
  refine ⟨hbusy, ?_, ?_⟩
  · by_contra hpending
    simp [h.pending_alone hpending] at hs
  · by_contra herr
    simp [h.error_iff.mp herr] at hbusy

/-- Only an accepted or refused command word moves control, and both are taken outside BUSY. -/
theorem hostOp_keeps_controlOk {s t : State} (h : ControlOk s) (hop : HostOp s t) : ControlOk t := by
  cases hop with
  | quiet script lastRead => exact { h with }
  | dropped r v script hreg hscript hbusy => exact { h with }
  | accepted i v script hscript hidle =>
    obtain ⟨-, hs⟩ := idle_of_not_busy h hidle
    exact { h with
      busy_iff := by simp
      error_iff := by simp
      pending_alone := by simp [hs]
      op_pending := by simp
      op_searching := by simp [hs] }
  | refused v script hscript hidle =>
    obtain ⟨-, hs⟩ := idle_of_not_busy h hidle
    exact { h with
      busy_iff := by simp [hs]
      error_iff := by simp
      pending_alone := by simp
      op_pending := by simp
      op_searching := by simp [hs] }
  | written script sn c hdr digest hidle => exact { h with }

/-- Execution uses the command up: the block leaves BUSY, or a search runs in its place. -/
theorem execOp_keeps_controlOk {i : Instr} {s t : State} (h : ControlOk s) (hpending : s.pending = some i)
    (hop : ExecOp s i t) : ControlOk t := by
  obtain ⟨hbusy, hs, hopc, herr⟩ := busy_of_pending h hpending
  cases hop with
  | completed _ job digest predHit hsearch htest hoffset =>
    exact { h with
      busy_iff := by simp [hs]
      error_iff := by simp [herr]
      pending_alone := by simp
      op_pending := by simp
      offset_range := hoffset h.offset_range }
  | raised _ code job predHit hcode htest hoffset =>
    exact { h with
      busy_iff := by simp [hs]
      error_iff := by simp [hcode]
      pending_alone := by simp
      op_pending := by simp
      offset_range := hoffset h.offset_range }
  | launched job hdomain hhashes hpredicate =>
    obtain ⟨hoffset, -⟩ := hpredicate
    exact { h with
      lanes_pos := by simpa using h.lanes_pos
      lanes_le := by simpa using h.lanes_le
      busy_iff := by simp [hbusy]
      pending_alone := by simp
      op_pending := by simp
      op_searching := fun _ => hopc
      lanes_stopped := by simp
      result_clear := by simp
      offset_range := by simp only; omega }

/-- A lane's contents do not matter while a search runs. -/
theorem setLane_keeps_controlOk {s : State} (h : ControlOk s) (hs : s.searching = true) (i : Nat) (l : Lane) :
    ControlOk (s.setLane i l) :=
  { h with
    lanes_pos := by simpa using h.lanes_pos
    lanes_le := by simpa using h.lanes_le
    lanes_stopped := by simp [hs] }

/-- An agent of the block keeps the invariant: only the finish step moves control besides an execution. -/
theorem agentOp_keeps_controlOk {s t : State} (h : ControlOk s) (hop : AgentOp s t) : ControlOk t := by
  cases hop with
  | executed i t hpending hexec => exact execOp_keeps_controlOk h hpending (execOp_of_exec hexec)
  | finished hpending hfinish =>
    obtain ⟨hs, hstopped⟩ := canFinish_eq_true.mp hfinish
    obtain ⟨-, -, herr⟩ := busy_of_searching h hs
    exact { h with
      busy_iff := by cases hv : s.status.resultValid <;> simp [hv, hpending]
      error_iff := by cases hv : s.status.resultValid <;> simp [hv, herr]
      pending_alone := by simp
      op_searching := by simp
      lanes_stopped := fun _ => hstopped }
  | laneMoved i l l' hlane hactive => exact setLane_keeps_controlOk h (searching_of_active h hlane hactive) i l'
  | lanePublished i l l' n hlane hactive hinvalid =>
    have hpublished : ControlOk { s with resultNonce := n, status := { s.status with resultValid := true } } :=
      { h with result_clear := by simp }
    have hs : s.searching = true := searching_of_active h hlane hactive
    exact setLane_keeps_controlOk hpublished hs i l'

/-- After reset nothing is pending or running, so the invariant rests on the parameters alone (spec/00_scope.md R6,
R7). -/
theorem controlOk_resetOf {c : Config} (hpos : 1 ≤ c.numWorkers) (hle : c.numWorkers ≤ 32)
    (hbase : c.base % Config.windowSize = 0) : ControlOk (State.resetOf c) where
  lanes_pos := by simpa [State.resetOf] using hpos
  lanes_le := by simpa [State.resetOf] using hle
  base_aligned := hbase
  busy_iff := by simp [State.resetOf, Status.reset]
  error_iff := by simp [State.resetOf, Status.reset]
  pending_alone := by simp [State.resetOf]
  op_pending := by simp [State.resetOf]
  op_searching := by simp [State.resetOf]
  lanes_stopped := by simp [State.resetOf, Lane.reset, Lane.active]
  result_clear := by simp [State.resetOf]
  offset_range := by simp [State.resetOf]

/-- The reset input keeps the parameters, so it keeps the invariant. -/
theorem resetInput_keeps_controlOk {s : State} (h : ControlOk s) : ControlOk (resetInput s) :=
  controlOk_outside (controlOk_resetOf (c := { base := s.base, numWorkers := s.numWorkers }) h.lanes_pos h.lanes_le
    h.base_aligned) s.script s.turns s.choices s.lastRead

/-- Settles O45, by the operations a step can be: each keeps the invariant. -/
theorem stepKeepsControlOk : Obligations.StepKeepsControlOk := by
  intro s t h hstep
  obtain ⟨turns, choices, hop⟩ := step_ops hstep
  have hs : ControlOk { s with turns := turns, choices := choices } :=
    controlOk_outside h s.script turns choices s.lastRead
  obtain hhost | hagent | ⟨-, rfl⟩ := hop
  · exact hostOp_keeps_controlOk hs hhost
  · exact agentOp_keeps_controlOk hs hagent
  · exact resetInput_keeps_controlOk hs

/-! ### What the operations leave unchanged -/

/-- While BUSY the host's turn leaves every data register as it is (spec/20_memory.md R64). -/
theorem hostOp_keeps_operands {s t : State} (hop : HostOp s t) (hbusy : s.status.state = .busy) :
    t.hdr = s.hdr ∧ t.startNonce = s.startNonce ∧ t.concurrency = s.concurrency ∧ t.digest = s.digest := by
  cases hop with
  | quiet script lastRead => exact ⟨rfl, rfl, rfl, rfl⟩
  | dropped r v script hreg hscript _ => exact ⟨rfl, rfl, rfl, rfl⟩
  | accepted i v script hscript hidle => exact absurd hbusy hidle
  | refused v script hscript hidle => exact absurd hbusy hidle
  | written script sn c hdr digest hidle => exact absurd hbusy hidle

/-- The host never writes `JOB`, `PRED_HIT` or the result cell, and starts and ends no search (spec/20_memory.md R66). -/
theorem hostOp_frame {s t : State} (hop : HostOp s t) :
    t.job = s.job ∧ t.status.predHit = s.status.predHit ∧ t.status.resultValid = s.status.resultValid ∧
      t.resultNonce = s.resultNonce ∧ t.searching = s.searching := by
  cases hop <;> exact ⟨rfl, rfl, rfl, rfl, rfl⟩

/-- With no command pending, neither the controller nor a lane writes an operand of the search (spec/10_state.md R49). -/
theorem agentOp_keeps_operands {s t : State} (hop : AgentOp s t) (hpending : s.pending = none) :
    t.hdr = s.hdr ∧ t.startNonce = s.startNonce ∧ t.concurrency = s.concurrency ∧ t.digest = s.digest ∧
      t.job = s.job := by
  cases hop with
  | executed i t hsome hexec => simp [hpending] at hsome
  | finished _ hfinish => exact ⟨rfl, rfl, rfl, rfl, rfl⟩
  | laneMoved i l l' hlane hactive => exact ⟨rfl, rfl, rfl, rfl, rfl⟩
  | lanePublished i l l' n hlane hactive hinvalid => exact ⟨rfl, rfl, rfl, rfl, rfl⟩

/-- Neither the controller nor a lane writes `REJ` (spec/10_state.md R26). -/
theorem agentOp_keeps_rej {s t : State} (hop : AgentOp s t) : t.status.rej = s.status.rej := by
  cases hop with
  | executed i t hpending hexec => cases execOp_of_exec hexec <;> rfl
  | finished hpending hfinish => rfl
  | laneMoved i l l' hlane hactive => rfl
  | lanePublished i l l' n hlane hactive hinvalid => rfl

/-- Settles O29: the host has no write to the result cell, no command but SEARCH clears it, and only a lane that finds it
empty publishes. -/
theorem resultIsWrittenOnce : Obligations.ResultIsWrittenOnce := by
  intro s t hvalid hsearch hreset hstep
  obtain ⟨turns, choices, hhost | hagent⟩ := step_ops_of_no_reset hstep hreset
  · obtain ⟨-, -, hv, hn, -⟩ := hostOp_frame hhost
    exact ⟨hv.trans hvalid, hn⟩
  cases hagent with
  | executed i t hpending hexec =>
    cases execOp_of_exec hexec with
    | completed => exact ⟨hvalid, rfl⟩
    | raised => exact ⟨hvalid, rfl⟩
    | launched => exact absurd hpending hsearch
  | finished hpending hfinish => exact ⟨hvalid, rfl⟩
  | laneMoved i l l' hlane hactive => exact ⟨hvalid, rfl⟩
  | lanePublished i l l' n hlane hactive hinvalid => exact absurd hvalid (by simpa using hinvalid)

/-- Settles O48: while BUSY the host's writes are dropped, and no command executes while a search runs. -/
theorem searchOperandsAreImmutable : Obligations.SearchOperandsAreImmutable := by
  refine ⟨fun s t hbusy hturn => hostOp_keeps_operands (hostOp_of_hostStep hturn) hbusy, ?_⟩
  intro s t h hs hreset hstep
  obtain ⟨hbusy, hpending, -⟩ := busy_of_searching h hs
  obtain ⟨turns, choices, hhost | hagent⟩ := step_ops_of_no_reset hstep hreset
  · obtain ⟨hhdr, hstart, hconc, hdigest⟩ := hostOp_keeps_operands hhost hbusy
    obtain ⟨hjob, -⟩ := hostOp_frame hhost
    exact ⟨hhdr, hstart, hconc, hdigest, hjob⟩
  · have hkept := agentOp_keeps_operands hagent hpending
    exact hkept

/-- Settles O49: neither the host nor, with no command pending, an agent of the block writes `JOB`. -/
theorem jobChangesOnlyByCommands : Obligations.JobChangesOnlyByCommands := by
  intro s t hpending hreset hstep
  obtain ⟨turns, choices, hhost | hagent⟩ := step_ops_of_no_reset hstep hreset
  · obtain ⟨hjob, -⟩ := hostOp_frame hhost
    exact hjob
  · obtain ⟨-, -, -, -, hjob⟩ := agentOp_keeps_operands hagent hpending
    exact hjob

/-- Settles O50: of the operations a step can be, only the execution of TEST writes `PRED_HIT`. -/
theorem onlyTestWritesPredHit : Obligations.OnlyTestWritesPredHit := by
  intro s t htest hreset hstep
  obtain ⟨turns, choices, hhost | hagent⟩ := step_ops_of_no_reset hstep hreset
  · obtain ⟨-, hpred, -⟩ := hostOp_frame hhost
    exact hpred
  cases hagent with
  | executed i t hpending hexec =>
    have hne : i ≠ .test := fun heq => htest (heq ▸ hpending)
    cases execOp_of_exec hexec with
    | completed _ job digest predHit _ hkept _ => exact hkept hne
    | raised _ code job predHit _ hkept _ => exact hkept hne
    | launched => rfl
  | finished hpending hfinish => rfl
  | laneMoved i l l' hlane hactive => rfl
  | lanePublished i l l' n hlane hactive hinvalid => rfl

/-- Where `REJ` does not move, nothing is to be shown of a move. -/
theorem rej_moves_of_same {s t : State} {P Q : Prop} (h : t.status.rej = s.status.rej) :
    (s.status.rej = true → t.status.rej = false → P) ∧ (s.status.rej = false → t.status.rej = true → Q) := by
  rw [h]
  cases s.status.rej <;> simp

/-- Settles O51: only the host moves `REJ`, up by a write that is dropped and down by a command word that is taken. -/
theorem rejIsStickyUntilACommandIsAccepted : Obligations.RejIsStickyUntilACommandIsAccepted := by
  intro s t hreset hstep
  obtain ⟨turns, choices, hhost | hagent⟩ := step_ops_of_no_reset hstep hreset
  case inr =>
    have hsame := agentOp_keeps_rej hagent
    exact rej_moves_of_same hsame
  cases hhost with
  | quiet script lastRead => exact rej_moves_of_same rfl
  | dropped r v script hreg hscript hbusy =>
    exact ⟨fun _ hclear => by simp at hclear, fun _ _ => ⟨hbusy, r, v, script, hreg, hscript⟩⟩
  | accepted i v script hscript hidle =>
    exact ⟨fun _ _ => ⟨hidle, v, script, hscript⟩, fun _ hset => by simp at hset⟩
  | refused v script hscript hidle =>
    exact ⟨fun _ _ => ⟨hidle, v, script, hscript⟩, fun _ hset => by simp at hset⟩
  | written script sn c hdr digest hidle => exact rej_moves_of_same rfl

/-! ### The job window of a running search -/

/-- Whether the job window is the header's depends on `HDR` and `JOB` alone. -/
theorem jobOfHeader_congr {s t : State} (h : s.jobOfHeader) (hhdr : t.hdr = s.hdr) (hjob : t.job = s.job) :
    t.jobOfHeader := by
  simpa only [State.jobOfHeader, State.inDomain, HashesHeader, HoldsPredicate, State.exponent, hhdr, hjob] using h

/-- A search starts only by a launch, which derives the job window from the header (spec/43_search.md R178). -/
theorem jobOfHeader_of_search_starts {s t : State} (hop : AgentOp s t) (hs : s.searching = false)
    (ht : t.searching = true) : t.jobOfHeader := by
  cases hop with
  | executed i t hpending hexec =>
    cases execOp_of_exec hexec with
    | completed => simp [hs] at ht
    | raised => simp [hs] at ht
    | launched job hdomain hhashes hpredicate => exact ⟨hdomain, hhashes, hpredicate⟩
  | finished => simp at ht
  | laneMoved => simp [hs] at ht
  | lanePublished => simp [hs] at ht

/-- Settles O59: while a search runs no step writes `HDR` or `JOB`, and the step that starts one is a launch. -/
theorem stepKeepsJobOfHeader : Obligations.StepKeepsJobOfHeader := by
  intro s t h hjob hstep ht
  obtain ⟨turns, choices, hop⟩ := step_ops hstep
  obtain hhost | hagent | ⟨-, rfl⟩ := hop
  · obtain ⟨hkept, -, -, -, hsearching⟩ := hostOp_frame hhost
    have hs : s.searching = true := hsearching.symm.trans ht
    obtain ⟨hbusy, -⟩ := busy_of_searching h hs
    obtain ⟨hhdr, -⟩ := hostOp_keeps_operands hhost hbusy
    exact jobOfHeader_congr (hjob hs) hhdr hkept
  · cases hs : s.searching with
    | false => exact jobOfHeader_of_search_starts hagent hs ht
    | true =>
      obtain ⟨-, hpending, -⟩ := busy_of_searching h hs
      obtain ⟨hhdr, -, -, -, hkept⟩ := agentOp_keeps_operands hagent hpending
      exact jobOfHeader_congr (hjob hs) hhdr hkept
  · simp at ht

end Sys2Proof.Proofs
end

section
/-! What the registers show of the state (spec/10_state.md R22 to R39), and the state after reset (R48). -/

namespace Sys2Proof.Proofs

open Sys2Proof.Machine

/-! ### The STATUS word -/

/-- `STATE` is in bits 2:0 (spec/10_state.md R22). -/
theorem toWord_state (st : Status) : st.toWord.extractLsb' 0 3 = st.state.code := by
  unfold Status.toWord
  rw [BitVec.extractLsb'_append_eq_right]

/-- `RESULT_VALID`, `PRED_HIT` and `REJ` are bits 3, 4 and 5 (spec/10_state.md R22). -/
theorem toWord_flags (st : Status) : st.toWord.getLsbD 3 = st.resultValid ∧ st.toWord.getLsbD 4 = st.predHit ∧
    st.toWord.getLsbD 5 = st.rej := by
  unfold Status.toWord
  refine ⟨?_, ?_, ?_⟩
  · rw [BitVec.getLsbD_append, BitVec.getLsbD_append]
    simp
  · rw [BitVec.getLsbD_append, BitVec.getLsbD_append, BitVec.getLsbD_append]
    simp
  · rw [BitVec.getLsbD_append, BitVec.getLsbD_append, BitVec.getLsbD_append, BitVec.getLsbD_append]
    simp

/-- Bits 7:6 are reserved (spec/10_state.md R22). -/
theorem toWord_reserved (st : Status) : st.toWord.extractLsb' 6 2 = 0 := by
  unfold Status.toWord
  rw [BitVec.extractLsb'_append_eq_of_le, BitVec.extractLsb'_append_eq_of_le, BitVec.extractLsb'_append_eq_of_le,
    BitVec.extractLsb'_append_eq_of_le, BitVec.extractLsb'_append_eq_right]
  all_goals decide

/-- `ERR` is in bits 11:8 (spec/10_state.md R22). -/
theorem toWord_err (st : Status) : st.toWord.extractLsb' 8 4 = st.err.code := by
  unfold Status.toWord
  rw [BitVec.extractLsb'_append_eq_of_le, BitVec.extractLsb'_append_eq_of_le, BitVec.extractLsb'_append_eq_of_le,
    BitVec.extractLsb'_append_eq_of_le, BitVec.extractLsb'_append_eq_of_le, BitVec.extractLsb'_append_eq_right]
  all_goals decide

/-- `OP` is in bits 15:12 (spec/10_state.md R22). -/
theorem toWord_op (st : Status) : st.toWord.extractLsb' 12 4 = opCode st.op := by
  unfold Status.toWord
  rw [BitVec.extractLsb'_append_eq_of_le, BitVec.extractLsb'_append_eq_of_le, BitVec.extractLsb'_append_eq_of_le,
    BitVec.extractLsb'_append_eq_of_le, BitVec.extractLsb'_append_eq_of_le, BitVec.extractLsb'_append_eq_of_le,
    BitVec.extractLsb'_append_eq_right]
  all_goals decide

/-- Bits 31:16 are reserved (spec/10_state.md R22). -/
theorem toWord_high (st : Status) : st.toWord.extractLsb' 16 16 = 0 := by
  unfold Status.toWord
  rw [BitVec.extractLsb'_append_eq_of_le, BitVec.extractLsb'_append_eq_of_le, BitVec.extractLsb'_append_eq_of_le,
    BitVec.extractLsb'_append_eq_of_le, BitVec.extractLsb'_append_eq_of_le, BitVec.extractLsb'_append_eq_of_le,
    BitVec.extractLsb'_append_eq_left]
  all_goals decide

/-- Settles O37: each field is cut out of the word at its bits, and each value has its code. -/
theorem statusWordHasItsFields : Obligations.StatusWordHasItsFields := by
  intro s
  obtain ⟨hvalid, hpred, hrej⟩ := toWord_flags s.status
  refine ⟨?_, hvalid, hpred, hrej, toWord_reserved s.status, ?_, ?_, toWord_high s.status⟩ <;> simp only [readReg]
  · rw [toWord_state]
    cases s.status.state <;> rfl
  · rw [toWord_err]
    cases s.status.err <;> rfl
  · rw [toWord_op]
    cases s.status.op with
    | none => rfl
    | some i => cases i <;> rfl

/-! ### The lane masks -/

/-- Bit `i` of a lane mask is lane `i`'s (spec/10_state.md R34, R35). -/
theorem getLsbD_laneMask (p : Lane → Bool) (ls : List Lane) (hle : ls.length ≤ 32) (i : Nat) :
    (laneMask p ls).getLsbD i = true ↔ ∃ l, ls[i]? = some l ∧ p l = true := by
  induction ls generalizing i with
  | nil => simp [laneMask]
  | cons l ls ih =>
    rw [List.length_cons] at hle
    have htail : ls.length ≤ 32 := by omega
    cases i with
    | zero => simp [laneMask]
    | succ i =>
      have hlt : ∀ x, ls[i]? = some x → p x = true → i + 1 < 32 := by
        intro x hx _
        obtain ⟨hi, -⟩ := List.getElem?_eq_some_iff.mp hx
        omega
      simpa [laneMask, ih htail] using hlt

/-- Settles O38: the masks are those of the active and of the exhausted lanes. -/
theorem laneMasksShowThePhases : Obligations.LaneMasksShowThePhases := by
  intro s i hle
  refine ⟨(getLsbD_laneMask Lane.active s.lanes hle i).trans ?_,
    (getLsbD_laneMask Lane.exhausted s.lanes hle i).trans ?_⟩
  · simp only [active_eq_true]
  · simp only [Lane.exhausted, decide_eq_true_eq]

/-! ### The counters -/

/-- The two halves of a 64-bit counter make it up (spec/10_state.md R33, R39). -/
theorem hiWord_loWord (v : BitVec 64) : (hiWord v).toNat * 2 ^ 32 + (loWord v).toNat = v.toNat := by
  have hv := v.isLt
  simp only [hiWord, loWord, BitVec.extractLsb'_toNat, Nat.shiftRight_eq_div_pow]
  omega

/-- The total is the sum of the counters modulo `2^64` (spec/10_state.md R33). -/
theorem totalHashes_toNat (ls : List Lane) :
    (totalHashes ls).toNat = (ls.map (fun l => l.hashCount.toNat)).sum % 2 ^ 64 := by
  induction ls with
  | nil => rfl
  | cons l ls ih => simp [totalHashes, BitVec.toNat_add, ih]

/-- Settles O39: a counter and the total are each read as the two halves of one 64-bit value, and a lane count of at most
32 fits the six bits of its register. -/
theorem countersReadInHalves : Obligations.CountersReadInHalves := by
  intro s hle
  refine ⟨fun i l hlane => ?_, ?_, ?_⟩
  · simp only [readReg, readReg.laneCounter, hlane]
    exact hiWord_loWord _
  · exact (hiWord_loWord _).trans (totalHashes_toNat _)
  · simp only [readReg, numWorkersWord, BitVec.toNat_setWidth, BitVec.toNat_ofNat]
    omega

/-! ### The state after reset -/

/-- A mask that no lane is in is 0. -/
theorem laneMask_replicate (p : Lane → Bool) (n : Nat) (l : Lane) (h : p l = false) :
    laneMask p (List.replicate n l) = 0 := by
  induction n with
  | zero => rfl
  | succ n ih => simp [List.replicate_succ, laneMask, ih, h]

theorem totalHashes_replicate (n : Nat) (l : Lane) (h : l.hashCount = 0) : totalHashes (List.replicate n l) = 0 := by
  induction n with
  | zero => rfl
  | succ n ih => simp [List.replicate_succ, totalHashes, ih, h]

/-- The place of a lane counter reads 0 after reset, whether or not there is such a lane (spec/10_state.md R48,
spec/20_memory.md R66). -/
theorem laneCounter_resetOf (c : Config) (i : Nat) (half : BitVec 64 → Word) (h : half 0 = 0) :
    readReg.laneCounter (State.resetOf c) i half = 0 := by
  unfold readReg.laneCounter
  split
  · rfl
  next l hlane =>
    obtain ⟨-, rfl⟩ := List.mem_replicate.mp (List.mem_of_getElem? hlane)
    exact h

/-- After reset every register but the hardwired `NUM_WORKERS` reads 0 (spec/10_state.md R48). -/
theorem readReg_resetOf (c : Config) (r : RegName) (h : r ≠ .numWorkers) : readReg (State.resetOf c) r = 0 := by
  have htotal : totalHashes (State.resetOf c).lanes = 0 := totalHashes_replicate _ _ rfl
  cases r with
  | cmd => rfl
  | status => exact (by decide : Status.reset.toWord = 0)
  | startNonce => rfl
  | concurrency => rfl
  | resultNonce => rfl
  | numWorkers => exact absurd rfl h
  | totalHashesLo => simp only [readReg, htotal]; rfl
  | totalHashesHi => simp only [readReg, htotal]; rfl
  | laneActive => exact laneMask_replicate _ _ _ rfl
  | laneExhausted => exact laneMask_replicate _ _ _ rfl
  | hdr i => simp [readReg, State.resetOf]
  | digest i => simp [readReg, State.resetOf]
  | job i => simp [readReg, State.resetOf]
  | laneHcLo i => exact laneCounter_resetOf c _ _ rfl
  | laneHcHi i => exact laneCounter_resetOf c _ _ rfl

/-- After reset the state is IDLE, so no search has an outcome. -/
theorem outcomeOk_resetOf (c : Config) : OutcomeOk (State.resetOf c) where
  found_sound h := absurd h (by simp [State.resetOf, Status.reset])
  exhausted_none h := absurd h (by simp [State.resetOf, Status.reset])
  exhausted_total h := absurd h (by simp [State.resetOf, Status.reset])

/-- Settles O44: the reset state of every block meets the claims, and the parameters of log 3 are legal. -/
theorem resetStateSatisfiesTheInvariants : Obligations.ResetStateSatisfiesTheInvariants :=
  ⟨readReg_resetOf Config.ofReset, rfl, controlOk_resetOf (by decide) (by decide) (by decide), rfl,
    outcomeOk_resetOf Config.ofReset⟩

end Sys2Proof.Proofs
end

section
/-! The register window (spec/20_memory.md R60 to R73): the map of offsets, what a bus access answers at each offset,
and the host's turn on an access. -/

namespace Sys2Proof.Proofs

open Sys2Proof.Machine

/-! ### The register map -/

/-- The registers with an offset of their own lie below 0x028 (R71). -/
theorem controlRegAt_eq_none {off : Nat} (h : 0x028 ≤ off) : controlRegAt off = none := by
  simp (disch := omega) only [controlRegAt, if_neg]

/-- The place of element `i` of an array of registers gives `i`. -/
theorem arrayIndex_self {start stride n : Nat} (i : Fin n) (h : 0 < stride) :
    arrayIndex start stride n (start + stride * i.val) = some i := by
  have hdiv : (start + stride * i.val - start) / stride = i.val := by
    rw [Nat.add_sub_cancel_left, Nat.mul_div_cancel_left _ h]
  have hmod : (start + stride * i.val - start) % stride = 0 := by
    rw [Nat.add_sub_cancel_left, Nat.mul_mod_right]
  rw [arrayIndex, dif_pos ⟨Nat.le_add_right _ _, hmod, hdiv.trans_lt i.isLt⟩]
  exact congrArg some (Fin.ext hdiv)

/-- An offset is in no array that starts after it, is over before it, or whose stride it does not meet. -/
theorem arrayIndex_eq_none {start stride n off : Nat}
    (h : off < start ∨ n ≤ (off - start) / stride ∨ (off - start) % stride ≠ 0) :
    arrayIndex start stride n off = none :=
  dif_neg fun ⟨hstart, hmod, hlt⟩ => by omega

/-- The map gives the register at its own offset: the arrays do not overlap, and the two halves of the lane counters
interleave (R71). -/
theorem regAt_offsetOf (r : RegName) : regAt (offsetOf r) = some r := by
  cases r with
  | hdr i | digest i | job i | laneHcLo i | laneHcHi i =>
    simp (disch := omega) [regAt, offsetOf, controlRegAt_eq_none, arrayIndex_eq_none, arrayIndex_self]
  | _ => rfl

/-- Every register is a word of the window, aligned on 4 (R60, R71). -/
theorem offsetOf_in_window (r : RegName) : offsetOf r < 0x400 ∧ offsetOf r % 4 = 0 := by
  cases r with
  | hdr i | digest i | job i | laneHcLo i | laneHcHi i =>
    simp only [offsetOf]
    omega
  | _ => decide

/-- Settles O3: the map inverts `offsetOf` on every register, and gives no register at another offset. -/
theorem registerMapRoundTrips : Obligations.RegisterMapRoundTrips :=
  ⟨fun r => ⟨regAt_offsetOf r, offsetOf_in_window r⟩, fun _ _ => offsetOf_of_regAt⟩

/-! ### What a bus access answers -/

/-- A read that reaches an offset returns the register there, 0 where there is none (R63, R66). -/
theorem busRead_of_offset {s : State} {addr n off : Nat} (h : accessOffset s.base addr n = .ok off) :
    busRead s addr n = .ok ((regAt off).elim 0 (readReg s)) := by
  cases hr : regAt off <;> simp [busRead, h, hr]

/-- A write that reaches an offset writes the register there, and is ignored where there is none (R64 to R66). -/
theorem busWrite_of_offset {s : State} {addr n off : Nat} (v : Word) (h : accessOffset s.base addr n = .ok off) :
    busWrite s addr n v = .ok ((regAt off).elim s (writeReg s · v)) := by
  cases hr : regAt off <;> simp [busWrite, h, hr]

/-- A read that reaches no offset is a host fault (R62). -/
theorem busRead_of_fault {s : State} {addr n : Nat} {f : Fault} (h : accessOffset s.base addr n = .error f) :
    busRead s addr n = .error f := by
  simp only [busRead, h]

/-- A write that reaches no offset is a host fault (R62). -/
theorem busWrite_of_fault {s : State} {addr n : Nat} {f : Fault} (v : Word)
    (h : accessOffset s.base addr n = .error f) : busWrite s addr n v = .error f := by
  simp only [busWrite, h]

/-- Settles O31, by the three cases of an access, each of which shuts out the premises of the other two. -/
theorem onlyAlignedWordAccessesSucceed : Obligations.OnlyAlignedWordAccessesSucceed := by
  intro s addr n v
  have hsize : Config.windowSize = 0x400 := rfl
  obtain ⟨hout, ha⟩ | ⟨hlo, hhi, hbad, ha⟩ | ⟨hlo, hhi, hn, hmod, ha⟩ := accessOffset_cases s.base addr n
  · exact ⟨by omega, by omega, fun _ => ⟨busRead_of_fault ha, busWrite_of_fault v ha⟩⟩
  · exact ⟨by omega, fun _ _ _ => ⟨busRead_of_fault ha, busWrite_of_fault v ha⟩, by omega⟩
  · exact ⟨fun _ _ _ _ => ⟨⟨_, busRead_of_offset ha⟩, _, busWrite_of_offset v ha⟩, by omega, by omega⟩

/-- A word access at an aligned offset of the window reaches that offset (R60, R61). -/
theorem accessOffset_add {off : Nat} (base : Nat) (hlt : off < 0x400) (hmod : off % 4 = 0) :
    accessOffset base (base + off) 4 = .ok off := by
  have hsize : Config.windowSize = 0x400 := rfl
  obtain ⟨hout, -⟩ | ⟨-, -, hbad, -⟩ | ⟨-, -, -, -, ha⟩ := accessOffset_cases base (base + off) 4
  · omega
  · omega
  · rw [ha, Nat.add_sub_cancel_left]

/-- A word read at a register's offset returns the register (R63). -/
theorem busRead_offsetOf (s : State) (r : RegName) : busRead s (s.base + offsetOf r) 4 = .ok (readReg s r) := by
  obtain ⟨hlt, hmod⟩ := offsetOf_in_window r
  simp [busRead_of_offset (accessOffset_add s.base hlt hmod), regAt_offsetOf]

/-- A word write at a register's offset writes the register (R64 to R66). -/
theorem busWrite_offsetOf (s : State) (r : RegName) (v : Word) :
    busWrite s (s.base + offsetOf r) 4 v = .ok (writeReg s r v) := by
  obtain ⟨hlt, hmod⟩ := offsetOf_in_window r
  simp [busWrite_of_offset v (accessOffset_add s.base hlt hmod), regAt_offsetOf]

/-! ### Writes to data registers -/

theorem ne_cmd_of_isDataReg {r : RegName} (h : isDataReg r = true) : r ≠ .cmd := by
  rintro rfl
  cases h

theorem isReadOnlyReg_of_isDataReg {r : RegName} (h : isDataReg r = true) : isReadOnlyReg r = false := by
  simp [isReadOnlyReg, h]

/-- A data register is not written while BUSY (R64). -/
theorem writeReg_of_busy {s : State} {r : RegName} (v : Word) (hdata : isDataReg r = true) (hbusy : s.busy = true) :
    writeReg s r v = dropWrite s := by
  obtain ⟨hro, -⟩ | ⟨hcmd, -⟩ | ⟨-, -, hw⟩ | ⟨-, hidle, -⟩ := writeReg_cases s r v
  · simp [isReadOnlyReg_of_isDataReg hdata] at hro
  · exact absurd hcmd (ne_cmd_of_isDataReg hdata)
  · exact hw
  · simp [hbusy] at hidle

/-- A write to a data register while not BUSY leaves all but the four data fields as they are (R64). -/
theorem writeReg_frame {s : State} {r : RegName} (v : Word) (hdata : isDataReg r = true) (hidle : s.busy = false) :
    writeReg s r v = { s with
      startNonce := (writeReg s r v).startNonce, concurrency := (writeReg s r v).concurrency
      hdr := (writeReg s r v).hdr, digest := (writeReg s r v).digest } := by
  obtain ⟨hro, -⟩ | ⟨hcmd, -⟩ | ⟨-, hbusy, -⟩ | ⟨-, -, sn, c, h, d, hw⟩ := writeReg_cases s r v
  · simp [isReadOnlyReg_of_isDataReg hdata] at hro
  · exact absurd hcmd (ne_cmd_of_isDataReg hdata)
  · simp [hidle] at hbusy
  · rw [hw]

theorem writeData_of_idle {s : State} (w : State) (h : s.busy = false) : writeData s w = w := by
  simp [writeData, h]

/-- A data register written while not BUSY holds the value (R64). -/
theorem readReg_writeReg_same {s : State} {r : RegName} (v : Word) (hdata : isDataReg r = true)
    (hidle : s.busy = false) : readReg (writeReg s r v) r = v := by
  cases r with
  | startNonce | concurrency => simp only [writeReg, writeData_of_idle _ hidle, readReg]
  | hdr i | digest i => simp [writeReg, writeData_of_idle _ hidle, readReg]
  | _ => cases hdata

/-- A data register written while not BUSY leaves every other register's value (R64): a field of its own is read by no
other register, and an element of an array by none of another index. -/
theorem readReg_writeReg_of_ne {s : State} {r r' : RegName} (v : Word) (hdata : isDataReg r = true)
    (hidle : s.busy = false) (hne : r' ≠ r) : readReg (writeReg s r v) r' = readReg s r' := by
  cases r with
  | startNonce =>
    simp only [writeReg, writeData_of_idle _ hidle]
    cases r' with
    | startNonce => exact absurd rfl hne
    | _ => rfl
  | concurrency =>
    simp only [writeReg, writeData_of_idle _ hidle]
    cases r' with
    | concurrency => exact absurd rfl hne
    | _ => rfl
  | hdr i =>
    simp only [writeReg, writeData_of_idle _ hidle]
    cases r' with
    | hdr j =>
      have hij : i.val ≠ j.val := fun h => hne (congrArg RegName.hdr (Fin.ext h.symm))
      exact Vector.getElem_set_ne i.isLt j.isLt hij
    | _ => rfl
  | digest i =>
    simp only [writeReg, writeData_of_idle _ hidle]
    cases r' with
    | digest j =>
      have hij : i.val ≠ j.val := fun h => hne (congrArg RegName.digest (Fin.ext h.symm))
      exact Vector.getElem_set_ne i.isLt j.isLt hij
    | _ => rfl
  | _ => cases hdata

/-- Settles O34: the write is `writeReg`, whose frame keeps `BASE`, so the read reaches the same register. -/
theorem dataRegisterReadsBackAsWritten : Obligations.DataRegisterReadsBackAsWritten := by
  intro s r v hdata hstate
  have hidle := busy_eq_false.mpr hstate
  have hbase : (writeReg s r v).base = s.base := by rw [writeReg_frame v hdata hidle]
  have hread : busRead (writeReg s r v) (s.base + offsetOf r) 4 = .ok v := by
    rw [← hbase, busRead_offsetOf, readReg_writeReg_same v hdata hidle]
  exact ⟨writeReg s r v, busWrite_offsetOf s r v, hread,
    fun _ hne => readReg_writeReg_of_ne v hdata hidle hne, writeReg_frame v hdata hidle⟩

/-- Settles O35: the write reaches its register and is dropped. -/
theorem dataWriteWhileBusyIsDropped : Obligations.DataWriteWhileBusyIsDropped := by
  intro s r v hdata hstate
  rw [busWrite_offsetOf, writeReg_of_busy v hdata (busy_eq_true.mpr hstate)]
  rfl

/-! ### Read-only registers and reserved offsets -/

/-- A write to a read-only register is ignored (R66). -/
theorem writeReg_of_readOnly {r : RegName} (s : State) (v : Word) (h : isReadOnlyReg r = true) :
    writeReg s r v = s := by
  obtain ⟨-, hw⟩ | ⟨rfl, -⟩ | ⟨hdata, -⟩ | ⟨hdata, -⟩ := writeReg_cases s r v
  · exact hw
  · cases h
  · simp [isReadOnlyReg_of_isDataReg hdata] at h
  · simp [isReadOnlyReg_of_isDataReg hdata] at h

/-- The counter of a lane that does not exist reads 0, either half (R66). -/
theorem laneCounter_of_absent {s : State} {i : Nat} (half : BitVec 64 → Word) (h : s.numWorkers ≤ i) :
    readReg.laneCounter s i half = 0 := by
  simp only [readReg.laneCounter, List.getElem?_eq_none h]

/-- The only registers of the map at reserved offsets are the counter halves of lanes that do not exist (R66, R71). -/
theorem absent_counter_of_reserved {s : State} {off : Nat} {r : RegName}
    (hoff : (0x028 ≤ off ∧ off < 0x040) ∨ (0x090 ≤ off ∧ off < 0x0A0) ∨ (0x0F4 ≤ off ∧ off < 0x100) ∨
      (0x100 + 8 * s.numWorkers ≤ off ∧ off < 0x400)) (h : regAt off = some r) :
    ∃ i : Fin 32, s.numWorkers ≤ i.val ∧ (r = .laneHcLo i ∨ r = .laneHcHi i) := by
  have heq := offsetOf_of_regAt h
  cases r with
  | laneHcLo i => exact ⟨i, by simp only [offsetOf] at heq; omega, .inl rfl⟩
  | laneHcHi i => exact ⟨i, by simp only [offsetOf] at heq; omega, .inr rfl⟩
  | _ => simp only [offsetOf] at heq; omega

/-- Settles O36: at a reserved offset the map names no register, or a counter half of a lane that does not exist, which
is read-only; `CMD` is the register at offset 0, and its value is 0. -/
theorem reservedAndReadOnlyOffsets : Obligations.ReservedAndReadOnlyOffsets := by
  refine ⟨fun s r v hro => ?_, fun s off v hoff hmod => ?_, fun s => busRead_offsetOf s .cmd⟩
  · rw [busWrite_offsetOf, writeReg_of_readOnly s v hro]
  · have haccess := accessOffset_add s.base (by omega : off < 0x400) hmod
    rw [busRead_of_offset haccess, busWrite_of_offset v haccess]
    cases hr : regAt off with
    | none => exact ⟨rfl, rfl⟩
    | some r =>
      obtain ⟨i, habsent, rfl | rfl⟩ := absent_counter_of_reserved hoff hr
      · exact ⟨congrArg Except.ok (laneCounter_of_absent loWord habsent), rfl⟩
      · exact ⟨congrArg Except.ok (laneCounter_of_absent hiWord habsent), rfl⟩

/-! ### The host's turn on an access -/

/-- The host's turn on a read that succeeds keeps the value read (R63, R72). -/
theorem hostStep_read {s : State} {addr n : Nat} {v : Word} {script : List HostStmt}
    (hscript : s.script = .read addr n :: script) (hread : busRead s addr n = .ok v) :
    hostStep s = .next { s with script := script, lastRead := some v } := by
  have hread' : busRead { s with script := script } addr n = .ok v := hread
  simp [hostStep, hscript, staysInScript, hostAccess, hread']

/-- The host's turn on a write that succeeds leaves the written state (R64, R72). -/
theorem hostStep_write {s t : State} {addr n : Nat} {v : Word} {script : List HostStmt}
    (hscript : s.script = .write addr n v :: script)
    (hwrite : busWrite { s with script := script } addr n v = .ok t) : hostStep s = .next t := by
  simp [hostStep, hscript, staysInScript, hostAccess, hwrite]

/-- Settles O32: the fixed turn is the host's, and its statement is the read. -/
theorem readsHaveNoSideEffect : Obligations.ReadsHaveNoSideEffect := by
  intro s addr n v script rest hscript hturns hread
  calc step s = hostStep { s with turns := rest } := step_of_turns_cons hturns
    _ = .next { s with script := script, turns := rest, lastRead := some v } := hostStep_read hscript hread

/-- A block that is not BUSY accepts a word that decodes to a command (spec/30_encoding.md R84). -/
theorem acceptCommand_of_decode {s : State} {w : Word} {i : Instr} (hdecode : decode w = .ok i)
    (hidle : s.busy = false) : acceptCommand w s = acceptLegal i s := by
  simp [acceptCommand, hidle, hdecode]

/-- A run goes on from the state its first step leaves. -/
theorem run_succ_of_step {M : Host.Core} {s t : M.State} (k : Nat) (h : M.step s = .next t) :
    M.run (k + 1) s = M.run k t := by
  simp only [Host.Core.run, h]

/-- A run of one step is the step. -/
theorem run_one {M : Host.Core} (s : M.State) : M.run 1 s = M.step s := by
  cases h : M.step s with
  | next t => exact run_succ_of_step 0 h
  | fault f => simp only [Host.Core.run, h]
  | refused x => simp only [Host.Core.run, h]

/-- The host's turn on a write of a command word to `CMD`, by a block that is not BUSY, accepts the command (R65, R73,
spec/30_encoding.md R84). -/
theorem step_command_write {s : State} {w : Word} {i : Instr} {script : List HostStmt} {rest : List Turn}
    (hdecode : decode w = .ok i) (hidle : s.busy = false) (hscript : s.script = .write s.base 4 w :: script)
    (hturns : s.turns = .host :: rest) :
    step s = .next (acceptLegal i { s with script := script, turns := rest }) := by
  rw [step_of_turns_cons hturns]
  refine hostStep_write hscript ((busWrite_offsetOf _ .cmd w).trans (congrArg Except.ok ?_))
  exact acceptCommand_of_decode hdecode hidle

/-- Settles O5: the first step is the acceptance, which leaves the command pending; the second is the controller's. -/
theorem writtenCommandIsExecuted : Obligations.WrittenCommandIsExecuted := by
  intro s w i script rest hdecode _ hidle hscript hturns
  have haccept := step_command_write hdecode hidle hscript hturns
  have hexec := controllerTurnRunsPendingCommand
    (acceptLegal i { s with script := script, turns := .controller :: rest }) i rest rfl rfl
  exact (run_succ_of_step (M := Sys2Proof.core) 1 haccept).trans ((run_one (M := Sys2Proof.core) _).trans hexec)

end Sys2Proof.Proofs
end

section
/-! Command words and their acceptance (spec/30_encoding.md R80 to R87): the decoder inverts the encoder, a write to
`CMD`, the command placed for the next step, and the poll loop `WAIT`. -/

namespace Sys2Proof.Proofs

open Sys2Proof.Machine

/-! ### The fields of a command word -/

/-- `MBZ` is the word without its low four bits (R80). -/
theorem mbzField_toNat (w : Word) : (mbzField w).toNat = w.toNat / 16 := by
  simp only [mbzField, BitVec.extractLsb'_toNat, Nat.shiftRight_eq_div_pow]
  omega

/-- `OPC` is the low four bits of the word (R80). -/
theorem opcField_toNat (w : Word) : (opcField w).toNat = w.toNat % 16 := by
  simp only [opcField, BitVec.extractLsb'_toNat, Nat.shiftRight_zero]

/-- The command word is its opcode, `MBZ` being 0 (R80, R81). -/
theorem encode_toNat (i : Instr) : (encode i).toNat = (opcode i).toNat := by
  rw [encode, BitVec.toNat_append]
  exact Nat.zero_or _

/-- A word whose fields are those of a command is the command's word: it has no other bits (R80). -/
theorem eq_encode_of_fields {w : Word} {i : Instr} (hmbz : mbzField w = 0) (hopc : opcField w = opcode i) :
    w = encode i := by
  have hhigh : w.toNat / 16 = 0 := by rw [← mbzField_toNat, hmbz]; rfl
  have hlow : w.toNat % 16 = (opcode i).toNat := by rw [← opcField_toNat, hopc]
  apply BitVec.eq_of_toNat_eq
  rw [encode_toNat]
  omega

/-! ### The decoder and the encoder -/

/-- The decoder gives back the command whose word it reads (R80, R81). -/
theorem decode_encode (i : Instr) : decode (encode i) = .ok i := by
  cases i <;> rfl

/-- A word the decoder takes for a command is the command's word: each branch that answers a command has seen `MBZ = 0`
and the command's opcode (R81, R82). -/
theorem eq_encode_of_decode {w : Word} {i : Instr} (h : decode w = .ok i) : w = encode i := by
  unfold decode at h
  split_ifs at h with hmbz h1 h2 h3 h4
  all_goals
    cases h
    exact eq_encode_of_fields (not_not.mp hmbz) ‹_›

/-- The decoder inverts the encoder (R80 to R82). -/
theorem decode_eq_ok_iff (w : Word) (i : Instr) : decode w = .ok i ↔ w = encode i :=
  ⟨eq_encode_of_decode, fun h => h ▸ decode_encode i⟩

/-- The illegal words are those the encoder writes for no command (R82). -/
theorem decode_error_iff (w : Word) : (∃ x, decode w = .error x) ↔ ∀ i, w ≠ encode i := by
  simp only [ne_eq, ← decode_eq_ok_iff]
  cases decode w with
  | ok i => simp
  | error x => simp

/-- The command words are 1 to 4 (R81). -/
theorem exists_eq_encode_iff (w : Word) : (∃ i, w = encode i) ↔ 1 ≤ w.toNat ∧ w.toNat ≤ 4 := by
  constructor
  · rintro ⟨i, rfl⟩
    cases i <;> decide
  · rintro ⟨hlo, hhi⟩
    obtain h | h | h | h : w.toNat = 1 ∨ w.toNat = 2 ∨ w.toNat = 3 ∨ w.toNat = 4 := by omega
    · exact ⟨.prepare, BitVec.eq_of_toNat_eq h⟩
    · exact ⟨.hash, BitVec.eq_of_toNat_eq h⟩
    · exact ⟨.test, BitVec.eq_of_toNat_eq h⟩
    · exact ⟨.search, BitVec.eq_of_toNat_eq h⟩

/-- The illegal words are 0 and all from 5 on (R82). -/
theorem decode_error_iff_toNat (w : Word) : (∃ x, decode w = .error x) ↔ w.toNat = 0 ∨ 5 ≤ w.toNat := by
  rw [decode_error_iff, ← not_exists, exists_eq_encode_iff]
  omega

/-- Settles O2: the decoder inverts the encoder, and the fields of a word tell 1 to 4 from the other words. -/
theorem decodeAcceptsExactlyTheCommandWords : Obligations.DecodeAcceptsExactlyTheCommandWords := by
  refine fun w => ⟨decode_eq_ok_iff w, ?_⟩
  rw [decode_error_iff_toNat]
  omega

/-- The word of a table row, numbered on 32 bits, decodes as the word does (R80). -/
theorem decodeTableWord_toNat (w : Word) : decodeTableWord 32 w.toNat = (decode w).toOption := by
  have hmod : w.toNat % 2 ^ 32 = w.toNat := Nat.mod_eq_of_lt w.isLt
  rw [decodeTableWord, hmod, if_pos w.isLt, BitVec.ofNat_toNat, BitVec.setWidth_eq]
  cases decode w <;> rfl

theorem decodeTableWord_encode (i : Instr) : decodeTableWord 32 (encode i).toNat = some i := by
  rw [decodeTableWord_toNat, decode_encode]
  rfl

theorem decodeTableWord_eq_none (w : Word) (h : w.toNat = 0 ∨ 5 ≤ w.toNat) : decodeTableWord 32 w.toNat = none := by
  obtain ⟨x, hx⟩ := (decode_error_iff_toNat w).mpr h
  rw [decodeTableWord_toNat, hx]
  rfl

/-- Settles O1: the first four words are those the encoder writes, the other six are 0 or at least 5. -/
theorem commandWordsDecode : Obligations.CommandWordsDecode :=
  ⟨decodeTableWord_encode .prepare, decodeTableWord_encode .hash,
    decodeTableWord_encode .test, decodeTableWord_encode .search,
    decodeTableWord_eq_none 0x00000000 (by decide), decodeTableWord_eq_none 0x00000005 (by decide),
    decodeTableWord_eq_none 0x0000000F (by decide), decodeTableWord_eq_none 0x00000010 (by decide),
    decodeTableWord_eq_none 0x00000014 (by decide), decodeTableWord_eq_none 0x80000001 (by decide)⟩

/-! ### Command acceptance -/

/-- A BUSY block drops every word (R84). -/
theorem acceptCommand_of_busy {s : State} (v : Word) (hbusy : s.busy = true) : acceptCommand v s = dropWrite s := by
  simp only [acceptCommand, hbusy, if_true]

/-- A block that is not BUSY refuses an illegal word (R84). -/
theorem acceptCommand_of_illegal {s : State} {v : Word} (hillegal : ∃ x, decode v = .error x)
    (hidle : s.busy = false) : acceptCommand v s = acceptIllegal s := by
  obtain ⟨x, hx⟩ := hillegal
  simp [acceptCommand, hidle, hx]

/-- Settles O9: the write reaches `CMD`, and what acceptance makes of it follows from BUSY and from the decoder. -/
theorem commandWriteIsAcceptedDroppedOrRefused : Obligations.CommandWriteIsAcceptedDroppedOrRefused := by
  intro s v
  have hwrite : busWrite s s.base 4 v = .ok (acceptCommand v s) := busWrite_offsetOf s .cmd v
  rw [hwrite]
  refine ⟨fun hbusy => ?_, fun hidle i hword => ?_, fun hidle hnone => ?_⟩
  · rw [acceptCommand_of_busy v (busy_eq_true.mpr hbusy)]
    rfl
  · rw [acceptCommand_of_decode ((decode_eq_ok_iff v i).mpr hword) (busy_eq_false.mpr hidle)]
    rfl
  · rw [acceptCommand_of_illegal ((decode_error_iff v).mpr hnone) (busy_eq_false.mpr hidle)]
    rfl

/-- Placing a command's word accepts the command and puts the controller's turn first (R84; log 9). -/
theorem withFetchWord_encode (s : State) (i : Instr) :
    s.withFetchWord 32 (encode i).toNat =
      { acceptLegal i (s.setEngine .idle) with turns := .controller :: s.turns } := by
  have hword : BitVec.ofNat 32 ((encode i).toNat % 2 ^ 32) = encode i := by
    rw [Nat.mod_eq_of_lt (encode i).isLt, BitVec.ofNat_toNat, BitVec.setWidth_eq]
  have haccept : acceptCommand (encode i) (s.setEngine .idle) = acceptLegal i (s.setEngine .idle) :=
    acceptCommand_of_decode (decode_encode i) rfl
  rw [State.withFetchWord, hword, State.withCommand, haccept]
  rfl

/-- Settles O6: the placed command is pending and the controller's turn is first; the engine state placing starts from
is overwritten by BUSY. -/
theorem placedCommandRunsNext : Obligations.PlacedCommandRunsNext := by
  intro s i
  rw [withFetchWord_encode]
  exact controllerTurnRunsPendingCommand _ i s.turns rfl rfl

/-! ### The poll loop -/

/-- The host's turn on `WAIT` while BUSY polls `STATUS` and keeps the statement (R87; log 11). -/
theorem hostStep_wait_of_busy {s : State} {script : List HostStmt} (hscript : s.script = .wait :: script)
    (hbusy : s.busy = true) : hostStep s = .next { s with lastRead := some (readReg s .status) } := by
  simp [hostStep, hscript, staysInScript, hbusy, hostAccess]

/-- The host's turn on `WAIT` while not BUSY polls `STATUS` and uses up the statement (R87; log 11). -/
theorem hostStep_wait_of_idle {s : State} {script : List HostStmt} (hscript : s.script = .wait :: script)
    (hidle : s.busy = false) :
    hostStep s = .next { s with script := script, lastRead := some (readReg s .status) } := by
  simp [hostStep, hscript, staysInScript, hidle, hostAccess, readReg]

/-- Settles O33: the fixed turn is the host's, and its statement is `WAIT`. -/
theorem waitPollsUntilNotBusy : Obligations.WaitPollsUntilNotBusy := by
  intro s script rest hscript hturns
  rw [step_of_turns_cons hturns]
  exact ⟨fun hbusy => hostStep_wait_of_busy (s := { s with turns := rest }) hscript (busy_eq_true.mpr hbusy),
    fun hidle => hostStep_wait_of_idle (s := { s with turns := rest }) hscript (busy_eq_false.mpr hidle)⟩

end Sys2Proof.Proofs
end

section
/-! The host's reference functions on header text (spec/40_codec_host.md R100 to R107): hex characters and nibbles,
nibbles and words, the round trips of parsing and printing, and the reversal of byte order. -/

namespace Sys2Proof.Proofs

open Sys2Proof.Machine

/-! ### Hex characters -/

/-- The printed digit of a nibble has the nibble's value (R102, R104). -/
theorem hexVal_hexDigit : ∀ v : BitVec 4, hexVal (hexDigit v) = some v := by
  decide

theorem hexDigit_of_lt {v : BitVec 4} (h : v.toNat < 10) : hexDigit v = Char.ofNat (48 + v.toNat) := if_pos h

theorem hexDigit_of_ge {v : BitVec 4} (h : 10 ≤ v.toNat) : hexDigit v = Char.ofNat (97 + (v.toNat - 10)) :=
  if_neg (Nat.not_lt.mpr h)

/-- The three ranges of hex characters, by code point, and the nibble of each (R102). -/
theorem hexVal_cases {c : Char} {v : BitVec 4} (h : hexVal c = some v) :
    (48 ≤ c.toNat ∧ c.toNat ≤ 57 ∧ v.toNat = c.toNat - 48) ∨
    (97 ≤ c.toNat ∧ c.toNat ≤ 102 ∧ v.toNat = c.toNat - 97 + 10) ∨
    (65 ≤ c.toNat ∧ c.toNat ≤ 70 ∧ v.toNat = c.toNat - 65 + 10) := by
  unfold hexVal at h
  split_ifs at h with hdigit hlower hupper
  · obtain ⟨hlo, hhi⟩ : 48 ≤ c.toNat ∧ c.toNat ≤ 57 := hdigit
    have hv : (BitVec.ofNat 4 (c.toNat - 48)).toNat = c.toNat - 48 := Nat.mod_eq_of_lt (by omega)
    cases h
    exact .inl ⟨hlo, hhi, hv⟩
  · obtain ⟨hlo, hhi⟩ : 97 ≤ c.toNat ∧ c.toNat ≤ 102 := hlower
    have hv : (BitVec.ofNat 4 (c.toNat - 97 + 10)).toNat = c.toNat - 97 + 10 := Nat.mod_eq_of_lt (by omega)
    cases h
    exact .inr (.inl ⟨hlo, hhi, hv⟩)
  · obtain ⟨hlo, hhi⟩ : 65 ≤ c.toNat ∧ c.toNat ≤ 70 := hupper
    have hv : (BitVec.ofNat 4 (c.toNat - 65 + 10)).toNat = c.toNat - 65 + 10 := Nat.mod_eq_of_lt (by omega)
    cases h
    exact .inr (.inr ⟨hlo, hhi, hv⟩)

/-- A character that is no capital letter is its own lower case. -/
theorem toLower_of_not_upper {c : Char} (h : ¬(65 ≤ c.toNat ∧ c.toNat ≤ 90)) : c.toLower = c :=
  dif_neg h

/-- The lower case of a capital letter is 32 code points up. -/
theorem toLower_of_upper {c : Char} (hlo : 65 ≤ c.toNat) (hhi : c.toNat ≤ 90) :
    c.toLower = Char.ofNat (c.toNat + 32) := by
  have hupper : c.val ≥ 'A'.val ∧ c.val ≤ 'Z'.val := ⟨hlo, hhi⟩
  have hvalid : (c.toNat + 32).isValidChar := .inl (by omega)
  apply Char.toNat_inj.mp
  rw [Char.toNat_ofNat, if_pos hvalid, Char.toLower, dif_pos hupper]
  have hval : c.val.toNat + 32 < 2 ^ 32 := by
    have hle : c.val.toNat ≤ 90 := hhi
    omega
  exact (UInt32.toNat_add c.val 32).trans (Nat.mod_eq_of_lt hval)

/-- The printed digit of a hex character's value is the character in lower case (R102, R104). -/
theorem hexDigit_of_hexVal {c : Char} {v : BitVec 4} (h : hexVal c = some v) : hexDigit v = c.toLower := by
  obtain ⟨hlo, hhi, hv⟩ | ⟨hlo, hhi, hv⟩ | ⟨hlo, hhi, hv⟩ := hexVal_cases h
  · have hcode : 48 + v.toNat = c.toNat := by omega
    rw [hexDigit_of_lt (by omega), hcode, Char.ofNat_toNat, toLower_of_not_upper (by omega)]
  · have hcode : 97 + (v.toNat - 10) = c.toNat := by omega
    rw [hexDigit_of_ge (by omega), hcode, Char.ofNat_toNat, toLower_of_not_upper (by omega)]
  · have hcode : 97 + (v.toNat - 10) = c.toNat + 32 := by omega
    rw [hexDigit_of_ge (by omega), hcode, toLower_of_upper hlo (by omega)]

/-! ### Texts and nibbles -/

theorem hexVals_map_hexDigit (vs : List (BitVec 4)) : hexVals (vs.map hexDigit) = .ok vs := by
  induction vs with
  | nil => rfl
  | cons v vs ih => simp only [List.map_cons, hexVals, hexVal_hexDigit, ih]

/-- A text has values only where its first character and its rest have (R102). -/
theorem hexVals_cons_ok {c : Char} {cs : List Char} {vs : List (BitVec 4)} (h : hexVals (c :: cs) = .ok vs) :
    ∃ v vs', hexVal c = some v ∧ hexVals cs = .ok vs' ∧ vs = v :: vs' := by
  unfold hexVals at h
  split at h
  next v vs' hv hvs =>
    cases h
    exact ⟨v, vs', hv, hvs, rfl⟩
  next => cases h

/-- Printing the values of a text gives the text in lower case (R102, R104). -/
theorem map_hexDigit_of_hexVals {cs : List Char} {vs : List (BitVec 4)} (h : hexVals cs = .ok vs) :
    vs.map hexDigit = cs.map Char.toLower := by
  induction cs generalizing vs with
  | nil =>
    cases h
    rfl
  | cons c cs ih =>
    obtain ⟨v, vs', hv, hvs, rfl⟩ := hexVals_cons_ok h
    rw [List.map_cons, List.map_cons, hexDigit_of_hexVal hv, ih hvs]

/-! ### Nibbles and words -/

/-- The nibbles of a word, most significant first (R103, R104). -/
def nibblesOfWord (w : Word) : List (BitVec 4) :=
  [w.extractLsb' 28 4, w.extractLsb' 24 4, w.extractLsb' 20 4, w.extractLsb' 16 4,
   w.extractLsb' 12 4, w.extractLsb' 8 4, w.extractLsb' 4 4, w.extractLsb' 0 4]

theorem printWord_eq (w : Word) : printWord w = (nibblesOfWord w).map hexDigit := rfl

/-- Printing goes through the nibbles. -/
theorem printWords_eq (ws : List Word) : printWords ws = (ws.flatMap nibblesOfWord).map hexDigit := by
  rw [List.map_flatMap]
  exact congrArg (List.flatMap · ws) (funext printWord_eq)

/-- Eight characters to a word (R104). -/
theorem length_printWords (ws : List Word) : (printWords ws).length = 8 * ws.length := by
  induction ws with
  | nil => rfl
  | cons w ws ih =>
    have hcons : printWords (w :: ws) = printWord w ++ printWords ws := rfl
    have hword : (printWord w).length = 8 := rfl
    rw [hcons, List.length_append, ih, hword, List.length_cons]
    omega

theorem wordOfNibbles_extract (w : Word) :
    wordOfNibbles (w.extractLsb' 28 4) (w.extractLsb' 24 4) (w.extractLsb' 20 4) (w.extractLsb' 16 4)
      (w.extractLsb' 12 4) (w.extractLsb' 8 4) (w.extractLsb' 4 4) (w.extractLsb' 0 4) = w := by
  unfold wordOfNibbles
  simp (disch := decide) only [BitVec.extractLsb'_append_extractLsb'_eq_extractLsb']
  exact BitVec.extractLsb'_eq_self

theorem nibblesOfWord_wordOfNibbles (a b c d e f g h : BitVec 4) :
    nibblesOfWord (wordOfNibbles a b c d e f g h) = [a, b, c, d, e, f, g, h] := by
  unfold nibblesOfWord wordOfNibbles
  simp (disch := decide) only [BitVec.extractLsb'_append_eq_of_le, BitVec.extractLsb'_append_eq_of_add_le,
    Nat.reduceSub, BitVec.extractLsb'_eq_self]

/-- The nibbles of words make the words again (R103). -/
theorem wordsOfNibbles_flatMap (ws : List Word) : wordsOfNibbles (ws.flatMap nibblesOfWord) = .ok ws := by
  induction ws with
  | nil => rfl
  | cons w ws ih =>
    simp only [List.flatMap_cons, nibblesOfWord, List.cons_append, List.nil_append, wordsOfNibbles,
      wordOfNibbles_extract]
    rw [ih]

/-- Nibbles that make words are the nibbles of those words (R103). -/
theorem flatMap_of_wordsOfNibbles {vs : List (BitVec 4)} {ws : List Word} (h : wordsOfNibbles vs = .ok ws) :
    ws.flatMap nibblesOfWord = vs := by
  induction vs using wordsOfNibbles.induct generalizing ws with
  | case1 =>
    cases h
    rfl
  | case2 a b c d e f g h' rest ws' hrest ih =>
    simp only [wordsOfNibbles, hrest] at h
    cases h
    rw [List.flatMap_cons, nibblesOfWord_wordOfNibbles, ih hrest]
    rfl
  | case3 a b c d e f g h' rest x hrest ih =>
    simp only [wordsOfNibbles, hrest] at h
    cases h
  | case4 t hnil hcons =>
    rw [wordsOfNibbles] at h
    · cases h
    · exact hnil
    · exact hcons

/-! ### The round trips -/

/-- A text that parses is a text of hex characters whose nibbles make the words (R101 to R103). -/
theorem parseHex_ok {cs : List Char} {ws : List Word} (h : parseHex cs = .ok ws) :
    ∃ vs, hexVals cs = .ok vs ∧ wordsOfNibbles vs = .ok ws := by
  unfold parseHex at h
  split at h
  next vs hvs => exact ⟨vs, hvs, h⟩
  next => cases h

theorem parseHex_printWords (ws : List Word) : parseHex (printWords ws) = .ok ws := by
  simp only [parseHex, printWords_eq, hexVals_map_hexDigit, wordsOfNibbles_flatMap]

theorem printWords_of_parseHex {cs : List Char} {ws : List Word} (h : parseHex cs = .ok ws) :
    printWords ws = cs.map Char.toLower := by
  obtain ⟨vs, hvs, hws⟩ := parseHex_ok h
  rw [printWords_eq, flatMap_of_wordsOfNibbles hws, map_hexDigit_of_hexVals hvs]

/-- Settles O41: each round trip is one through the nibbles, from words and from characters. -/
theorem parseAndPrintRoundTrip : Obligations.ParseAndPrintRoundTrip :=
  ⟨parseHex_printWords, fun _ _ => printWords_of_parseHex⟩

/-- A header text has twenty words, as printing them gives its 160 characters (R107). -/
theorem length_of_parseHeader {text : List Char} {words : List Word} (h : parseHeader text = .ok words) :
    words.length = 20 := by
  unfold parseHeader at h
  split_ifs at h with htext
  have hprint := congrArg List.length (printWords_of_parseHex h)
  rw [length_printWords, List.length_map, htext] at hprint
  omega

/-! ### The reversal of byte order -/

/-- The reversal fails exactly where a character is left without its pair (R106). -/
theorem reversePairs_eq_none_iff (cs acc : List Char) : reversePairs cs acc = none ↔ cs.length % 2 = 1 := by
  induction cs, acc using reversePairs.induct with
  | case1 acc => simp [reversePairs]
  | case2 c acc => simp [reversePairs]
  | case3 a b rest acc ih =>
    rw [reversePairs, ih, List.length_cons, List.length_cons]
    omega

/-- The reversed pairs stand before `acc`. -/
theorem reversePairs_eq_append {cs acc r : List Char} (h : reversePairs cs acc = some r) :
    ∃ front, front.length = cs.length ∧ r = front ++ acc := by
  induction cs, acc using reversePairs.induct with
  | case1 acc =>
    cases h
    exact ⟨[], rfl, rfl⟩
  | case2 c acc => cases h
  | case3 a b rest acc ih =>
    obtain ⟨front, hlen, rfl⟩ := ih h
    exact ⟨front ++ [a, b], by simp [hlen], by simp⟩

/-- Reversing the reversed pairs puts the text back before what `acc` turns into. -/
theorem reversePairs_reversed {cs acc r : List Char} (h : reversePairs cs acc = some r) (acc' : List Char) :
    reversePairs r acc' = reversePairs acc (cs ++ acc') := by
  induction cs, acc using reversePairs.induct with
  | case1 acc =>
    cases h
    rfl
  | case2 c acc => cases h
  | case3 a b rest acc ih => exact ih h

/-- Pair `p` of the result is pair `P - 1 - p` of the text, `b` being the place in the pair (R106): the first pair of
the text comes last, the others keep the place they have in the result for the rest. -/
theorem getElem?_reversePairs {cs acc r : List Char} (h : reversePairs cs acc = some r) {p b : Nat}
    (hp : p < cs.length / 2) (hb : b < 2) : r[2 * p + b]? = cs[2 * (cs.length / 2 - 1 - p) + b]? := by
  induction cs, acc using reversePairs.induct with
  | case1 acc => simp at hp
  | case2 c acc => simp at hp
  | case3 x y rest acc ih =>
    have heven : rest.length % 2 ≠ 1 := fun hodd => by
      rw [reversePairs, (reversePairs_eq_none_iff _ _).mpr hodd] at h
      cases h
    have hpairs : (x :: y :: rest).length / 2 = rest.length / 2 + 1 := by
      simp only [List.length_cons]
      omega
    rw [hpairs] at hp ⊢
    by_cases hlast : p = rest.length / 2
    · obtain ⟨front, hlen, rfl⟩ := reversePairs_eq_append (cs := rest) h
      have hplace : 2 * p + b = front.length + b := by omega
      have hfirst : 2 * (rest.length / 2 + 1 - 1 - p) + b = b := by omega
      rw [hplace, hfirst, List.getElem?_append_right (Nat.le_add_right _ _), Nat.add_sub_cancel_left]
      obtain rfl | rfl : b = 0 ∨ b = 1 := by omega
      · rfl
      · rfl
    · have hplace : 2 * (rest.length / 2 + 1 - 1 - p) + b = 2 * (rest.length / 2 - 1 - p) + b + 2 := by omega
      rw [hplace]
      exact ih h (by omega)

theorem reverseByteOrder_eq_ok_iff {cs r : List Char} : reverseByteOrder cs = .ok r ↔ reversePairs cs [] = some r := by
  unfold reverseByteOrder
  cases reversePairs cs [] <;> simp

theorem reverseByteOrder_eq_error_iff {cs : List Char} :
    reverseByteOrder cs = .error .invalidInput ↔ reversePairs cs [] = none := by
  unfold reverseByteOrder
  cases reversePairs cs [] <;> simp

/-- Settles O42, by what the reversal of pairs before an accumulator does, for the empty accumulator. -/
theorem reversingByteOrderTwiceIsIdentity : Obligations.ReversingByteOrderTwiceIsIdentity := by
  refine ⟨fun cs r h => ?_, fun cs => reverseByteOrder_eq_error_iff.trans (reversePairs_eq_none_iff cs [])⟩
  have hr := reverseByteOrder_eq_ok_iff.mp h
  refine ⟨?_, fun p hp => ⟨?_, ?_⟩, ?_⟩
  · obtain ⟨front, hlen, rfl⟩ := reversePairs_eq_append hr
    simp [hlen]
  · exact getElem?_reversePairs hr hp Nat.two_pos
  · exact getElem?_reversePairs hr hp Nat.one_lt_two
  · rw [reverseByteOrder_eq_ok_iff, reversePairs_reversed hr, List.append_nil, reversePairs]

end Sys2Proof.Proofs
end

section
/-! The host loads a header (spec/40_codec_host.md R108, spec/30_encoding.md R87): the header writes of a script, one a
host turn, and what they leave in `HDR`. -/

namespace Sys2Proof.Proofs

open Sys2Proof.Machine

/-! ### The writes as a list of places and words -/

/-- `HDR` after the word `p.2` is written to place `p.1` for each `p` of the list, in order. -/
def writeWords (hdr : Vector Word 20) (ps : List (Fin 20 × Word)) : Vector Word 20 :=
  ps.foldl (fun h p => h.set p.1 p.2) hdr

/-- The statements of header writes are those of the places paired with the words (R87). -/
theorem headerWrites_eq_map (base : Nat) (words : List Word) :
    headerWrites base words = ((List.finRange 20).zip words).map fun p => stmtWr base (.hdr p.1) p.2 :=
  List.map_uncurry_zip_eq_zipWith.symm

/-- A place that is not written keeps its word. -/
theorem getElem_writeWords_of_forall_ne {hdr : Vector Word 20} {ps : List (Fin 20 × Word)} {i : Fin 20}
    (h : ∀ p ∈ ps, p.1 ≠ i) : (writeWords hdr ps)[i] = hdr[i] := by
  induction ps generalizing hdr with
  | nil => rfl
  | cons p ps ih =>
    have hne : p.1.val ≠ i.val := fun heq => h p List.mem_cons_self (Fin.ext heq)
    calc (writeWords (hdr.set p.1 p.2) ps)[i] = (hdr.set p.1 p.2)[i] := ih fun q hq => h q (List.mem_cons_of_mem p hq)
      _ = hdr[i] := Vector.getElem_set_ne p.1.isLt i.isLt hne

/-- Where no place is written twice, a place that is written holds its word. -/
theorem getElem_writeWords_of_mem {hdr : Vector Word 20} {ps : List (Fin 20 × Word)} {i : Fin 20} {w : Word}
    (hnodup : (ps.map Prod.fst).Nodup) (h : (i, w) ∈ ps) : (writeWords hdr ps)[i] = w := by
  induction ps generalizing hdr with
  | nil => cases h
  | cons p ps ih =>
    obtain ⟨hfirst, hrest⟩ := List.nodup_cons.mp hnodup
    obtain rfl | hmem := List.mem_cons.mp h
    · have hothers : ∀ q ∈ ps, q.1 ≠ i := fun q hq heq => hfirst (List.mem_map.mpr ⟨q, hq, heq⟩)
      calc (writeWords (hdr.set i w) ps)[i] = (hdr.set i w)[i] := getElem_writeWords_of_forall_ne hothers
        _ = w := Vector.getElem_set_self i.isLt
    · exact ih hrest hmem

/-- Twenty words written to the places in order are the whole of `HDR` (R108). -/
theorem toList_writeWords_zip (hdr : Vector Word 20) {words : List Word} (hlen : words.length = 20) :
    (writeWords hdr ((List.finRange 20).zip words)).toList = words := by
  have hnodup : (((List.finRange 20).zip words).map Prod.fst).Nodup := by
    rw [List.map_fst_zip (by simp [hlen])]
    exact List.nodup_finRange 20
  refine List.ext_getElem (by simp [hlen]) fun i hi hi' => ?_
  have hlt : i < 20 := hlen ▸ hi'
  have hplace : ((⟨i, hlt⟩ : Fin 20), words[i]) ∈ (List.finRange 20).zip words :=
    List.mem_iff_getElem.mpr ⟨i, by simp [hlen, hlt], by simp⟩
  rw [Vector.getElem_toList]
  exact getElem_writeWords_of_mem hnodup hplace

/-! ### The host's turns on them -/

/-- The host's turn on a write of a header word, to a block that is not BUSY (spec/20_memory.md R64, R72). -/
theorem step_header_write {s : State} {i : Fin 20} {w : Word} {script : List HostStmt} {rest : List Turn}
    (hidle : s.busy = false) (hscript : s.script = stmtWr s.base (.hdr i) w :: script)
    (hturns : s.turns = .host :: rest) :
    step s = .next { s with hdr := s.hdr.set i w, script := script, turns := rest } := by
  rw [step_of_turns_cons hturns]
  refine hostStep_write hscript ((busWrite_offsetOf _ (.hdr i) w).trans (congrArg Except.ok ?_))
  exact writeData_of_idle _ hidle

/-- As many host turns as there are header writes make them all, and change nothing else. -/
theorem run_header_writes {s : State} (ps : List (Fin 20 × Word)) {script : List HostStmt} {rest : List Turn}
    (hidle : s.busy = false)
    (hscript : s.script = ps.map (fun p => stmtWr s.base (.hdr p.1) p.2) ++ script)
    (hturns : s.turns = List.replicate ps.length .host ++ rest) :
    Host.Core.run Sys2Proof.core ps.length s =
      .next { s with hdr := writeWords s.hdr ps, script := script, turns := rest } := by
  induction ps generalizing s with
  | nil =>
    subst hscript hturns
    rfl
  | cons p ps ih =>
    have hstep := step_header_write hidle hscript hturns
    exact (run_succ_of_step (M := Sys2Proof.core) ps.length hstep).trans (ih hidle rfl rfl)

/-- Settles O40: the expansion is the header writes of the parsed words, which are twenty. -/
theorem loadHeaderFillsTheHeaderRegisters : Obligations.LoadHeaderFillsTheHeaderRegisters := by
  intro s text words stmts script rest hidle hparse hstmts hscript hturns
  have hwords := length_of_parseHeader hparse
  simp only [stmtsLoadHdr, hparse] at hstmts
  cases hstmts
  have hcount : ((List.finRange 20).zip words).length = 20 := by simp [hwords]
  rw [headerWrites_eq_map] at hscript
  have hrun := run_header_writes ((List.finRange 20).zip words) (busy_eq_false.mpr hidle) hscript
    (by rw [hcount, hturns])
  rw [hcount] at hrun
  exact ⟨_, toList_writeWords_zip s.hdr hwords, hrun⟩

end Sys2Proof.Proofs
end

section
/-! The leading-zero-byte comparator (spec/41_header_predicate.md): what the predicate of a header is, what the test of
a digest against it means in the significance order of spec/20_memory.md R70, and TEST. -/

namespace Sys2Proof.Proofs

open Sys2Proof.Machine

/-! ### The predicate of a header -/

/-- The signed leading byte count of a header's word 18 (R123, R124). -/
theorem leadingBytes_bswap32 (w : Word) : leadingBytes (bswap32 w) = 32 - ((w.toNat % 256 : Nat) : Int) := by
  rw [leadingBytes, targetExponent_bswap32]

/-- In the domain the offset and the mask are those of `lb = 32 - exp` (R125 to R127). -/
theorem exists_predicateOf {w : Word} (hpos : 1 ≤ w.toNat % 256) (hle : w.toNat % 256 ≤ 32) :
    ∃ p, predicateOf w = some p ∧ p.offset.val = 7 - (32 - w.toNat % 256) / 4 ∧
      p.mask.toNat = 2 ^ (8 * ((32 - w.toNat % 256) % 4)) - 1 := by
  have hlb : leadingBytes (bswap32 w) = ((32 - w.toNat % 256 : Nat) : Int) := by
    rw [leadingBytes_bswap32]
    omega
  have hdomain : ¬ (leadingBytes (bswap32 w) < 0 ∨ leadingBytes (bswap32 w) > 31) := by omega
  refine ⟨_, if_neg hdomain, ?_, ?_⟩
  · simp only [hlb, Int.toNat_natCast]
  · simp only [hlb, Int.toNat_natCast, predicateMask_toNat]

/-- There is no predicate exactly outside the domain (R125). -/
theorem predicateOf_eq_none_iff {w : Word} : predicateOf w = none ↔ w.toNat % 256 = 0 ∨ 32 < w.toNat % 256 := by
  have hlb := leadingBytes_bswap32 w
  simp only [predicateOf, ite_eq_left_iff, reduceCtorEq, imp_false, not_not]
  omega

/-- The derivation from the header in `s` fails exactly outside the domain (R125, R128). -/
theorem predicateOf_hdr_eq_none_iff {s : State} : predicateOf s.hdr[18] = none ↔ ¬ s.inDomain := by
  rw [predicateOf_eq_none_iff, State.inDomain, State.exponent]
  omega

/-- Settles O10: the two clauses are the two outcomes of the derivation. -/
theorem predicateFollowsTheExponent : Obligations.PredicateFollowsTheExponent :=
  fun _ => ⟨fun ⟨hpos, hle⟩ => exists_predicateOf hpos hle, predicateOf_eq_none_iff.mpr⟩

/-! ### The bytes of a digest in the order of significance -/

/-- The bytes of a word as the predicate reads them, bits 7:0 first (spec/20_memory.md R70). -/
def significantWordBytes (w : Word) : List Byte := [byteOf w 0, byteOf w 1, byteOf w 2, byteOf w 3]

/-- The predicate reads the words of a digest from the last to the first (spec/20_memory.md R70). -/
theorem significantBytes_eq (d : Vector Word 8) :
    significantBytes d = d.toList.reverse.flatMap significantWordBytes := rfl

theorem byteOf_eq_zero_iff (w : Word) (j : Nat) : byteOf w j = 0 ↔ w.toNat / 2 ^ (8 * j) % 256 = 0 := by
  rw [byteOf, ← BitVec.toNat_inj, BitVec.extractLsb'_toNat, Nat.shiftRight_eq_div_pow]
  rfl

/-- The first `r` bytes of a word are its low `r` bytes. -/
theorem significantWordBytes_take_zero_iff (w : Word) {r : Nat} (hr : r ≤ 4) :
    (∀ b ∈ (significantWordBytes w).take r, b = 0) ↔ w.toNat % 2 ^ (8 * r) = 0 := by
  interval_cases r <;>
    simp only [significantWordBytes, List.take_zero, List.take_succ_cons, List.forall_mem_cons, List.not_mem_nil,
      false_imp_iff, implies_true, and_true, byteOf_eq_zero_iff, Nat.reduceMul, Nat.reducePow, Nat.div_one,
      Nat.mod_one] <;>
    omega

theorem significantWordBytes_zero_iff (w : Word) : (∀ b ∈ significantWordBytes w, b = 0) ↔ w = 0 := by
  have hall := significantWordBytes_take_zero_iff w (r := 4) le_rfl
  rw [Nat.mod_eq_of_lt w.isLt] at hall
  exact hall.trans (BitVec.toNat_inj (y := 0))

/-- The first `4 * q + r` bytes of a list of words are the whole of `q` words and `r` bytes of the next. -/
theorem flatMap_take_zero_iff {ws : List Word} {q r : Nat} (hq : q < ws.length) (hr : r ≤ 4) :
    (∀ b ∈ (ws.flatMap significantWordBytes).take (4 * q + r), b = 0) ↔
      (∀ w ∈ ws.take q, w = 0) ∧ ∀ b ∈ (significantWordBytes ws[q]).take r, b = 0 := by
  induction q generalizing ws with
  | zero =>
    cases ws with
    | nil => simp at hq
    | cons w ws =>
      have hwhole : r ≤ (significantWordBytes w).length := hr
      simp [List.take_append_of_le_length hwhole]
  | succ q ih =>
    cases ws with
    | nil => simp at hq
    | cons w ws =>
      have hcount : 4 * (q + 1) + r = (significantWordBytes w).length + (4 * q + r) := by
        simp only [significantWordBytes, List.length_cons, List.length_nil]
        omega
      rw [List.flatMap_cons, hcount, List.take_length_add_append, List.forall_mem_append,
        ih (Nat.lt_of_succ_lt_succ hq), significantWordBytes_zero_iff, List.take_succ_cons, List.forall_mem_cons,
        and_assoc, List.getElem_cons_succ]

/-! ### The test of a digest -/

/-- An OR over words is 0 exactly when each of them is (R129). -/
theorem foldl_or_eq_zero_iff (ws : List Word) (x : Word) :
    ws.foldl (· ||| ·) x = 0 ↔ x = 0 ∧ ∀ w ∈ ws, w = 0 := by
  induction ws generalizing x with
  | nil => simp
  | cons w ws ih =>
    have hor : x ||| w = 0 ↔ x = 0 ∧ w = 0 := BitVec.or_eq_zero_iff
    rw [List.foldl_cons, ih, hor, List.forall_mem_cons, and_assoc]

theorem predicateTest_eq_true_iff (offset : Fin 8) (mask : Word) (d : Vector Word 8) :
    predicateTest offset mask d = true ↔ d[offset] &&& mask = 0 ∧ ∀ w ∈ d.toList.drop (offset.val + 1), w = 0 := by
  rw [predicateTest, beq_iff_eq, foldl_or_eq_zero_iff]

/-- A mask of low bits keeps the low bits. -/
theorem and_mask_eq_zero_iff (w : Word) {mask : Word} {n : Nat} (hmask : mask.toNat = 2 ^ n - 1) :
    w &&& mask = 0 ↔ w.toNat % 2 ^ n = 0 := by
  rw [← BitVec.toNat_inj, BitVec.toNat_and, hmask, Nat.and_two_pow_sub_one_eq_mod]
  rfl

/-- The test with the offset and the mask of `lb` asks for `lb` leading zero bytes: the words after the offset are the
`lb / 4` whole words, and the masked word has the other `lb % 4` bytes (R130). -/
theorem predicateTest_iff_leading_bytes_zero {lb : Nat} (hlb : lb < 32) {offset : Fin 8} {mask : Word}
    (hoffset : offset.val = 7 - lb / 4) (hmask : mask.toNat = 2 ^ (8 * (lb % 4)) - 1) (d : Vector Word 8) :
    predicateTest offset mask d = true ↔ ∀ b ∈ (significantBytes d).take lb, b = 0 := by
  have hrest : lb % 4 ≤ 4 := by omega
  have hq : lb / 4 < d.toList.reverse.length := by
    simp only [List.length_reverse, Vector.length_toList]
    omega
  have hword : d.toList.reverse[lb / 4] = d[offset] := by
    simp [hoffset]
  have hwords : d.toList.reverse.take (lb / 4) = (d.toList.drop (offset.val + 1)).reverse := by
    rw [List.take_reverse, Vector.length_toList]
    congr 2
    omega
  have hbytes := flatMap_take_zero_iff hq hrest
  rw [Nat.div_add_mod, ← significantBytes_eq, hword, hwords, significantWordBytes_take_zero_iff _ hrest] at hbytes
  rw [predicateTest_eq_true_iff, and_mask_eq_zero_iff _ hmask, hbytes, and_comm]
  simp only [List.mem_reverse]

/-- The test against a job window that holds the predicate of the header in `s` (R130). -/
theorem predicateTest_of_holdsPredicate {s : State} {job : Vector Word 13} (hdomain : s.inDomain)
    (hjob : HoldsPredicate s job) (d : Vector Word 8) :
    predicateTest (jobOffset job) (jobMask job) d = true ↔
      ∀ b ∈ (significantBytes d).take (32 - s.exponent), b = 0 := by
  obtain ⟨hpos, -⟩ := hdomain
  obtain ⟨hoffset, hmask⟩ := hjob
  have hbits : (jobOffset job).val = job[11].toNat % 8 := by
    simp [jobOffset]
  exact predicateTest_iff_leading_bytes_zero (by omega) (by omega) hmask d

/-! ### TEST -/

/-- The predicate words stand after the hashing part of the job window (R128). -/
theorem jobWithPredicate_keeps {j : Fin 13} (job : Vector Word 13) (o m : Word) (hj : j.val < 11) :
    (jobWithPredicate job o m)[j] = job[j] := by
  have h11 : 11 ≠ j.val := by omega
  have h12 : 12 ≠ j.val := by omega
  simp [jobWithPredicate, h11, h12]

/-- Settles O16: in the domain TEST completes with the predicate of the header, and its test is R130's. -/
theorem testChecksTheLeadingBytes : Obligations.TestChecksTheLeadingBytes := by
  intro s hdomain
  obtain ⟨p, _, hp, rfl, hexec⟩ | ⟨hp, -⟩ := execTest_cases s
  · obtain ⟨-, hholds⟩ := holdsPredicate_of_predicateOf hp s.job
    exact ⟨_, _, hexec, hholds, fun _ hj => jobWithPredicate_keeps _ _ _ hj,
      predicateTest_of_holdsPredicate hdomain hholds s.digest⟩
  · exact absurd hdomain (predicateOf_hdr_eq_none_iff.mp hp)

/-- Settles O17: outside the domain the derivation fails, and TEST raises the error. -/
theorem testOutsideDomainRaisesPredRange : Obligations.TestOutsideDomainRaisesPredRange := by
  intro s hdomain
  obtain ⟨p, _, hp, -, -⟩ | ⟨-, hexec⟩ := execTest_cases s
  · obtain ⟨hin, -⟩ := holdsPredicate_of_predicateOf hp s.job
    exact absurd hin hdomain
  · exact ⟨_, hexec, fun _ hj => jobWithPredicate_keeps _ _ _ hj, jobWithPredicate_offset _ _ _,
      jobWithPredicate_mask _ _ _⟩

end Sys2Proof.Proofs
end

section
/-! The job window that PREPARE and HASH derive from the header, and the double hash as SHA-256 of the header's bytes
(spec/42_sha256d.md R151 to R161). -/

namespace Sys2Proof.Proofs

open Sys2Proof.Machine

/-! ### PREPARE and HASH -/

/-- Settles O11: in the domain the derivation of the predicate succeeds, and PREPARE completes. -/
theorem prepareFillsTheJobWindow : Obligations.PrepareFillsTheJobWindow := by
  intro s hdomain
  obtain ⟨p, hp, hexec⟩ | ⟨hp, -⟩ := execPrepare_cases s
  · obtain ⟨-, hholds⟩ := holdsPredicate_of_predicateOf hp (deriveMidstate s).job
    exact ⟨_, hexec, hashesHeader_deriveMidstate _ _ _, hholds⟩
  · exact absurd hdomain (predicateOf_hdr_eq_none_iff.mp hp)

/-- Settles O12: outside the domain the derivation fails, and PREPARE raises the error. -/
theorem prepareOutsideDomainRaisesPredRange : Obligations.PrepareOutsideDomainRaisesPredRange := by
  intro s hdomain
  obtain ⟨p, hp, -⟩ | ⟨-, hexec⟩ := execPrepare_cases s
  · obtain ⟨hin, -⟩ := holdsPredicate_of_predicateOf hp s.job
    exact absurd hin hdomain
  · exact ⟨_, hexec, hashesHeader_deriveMidstate _ _ _, jobWithPredicate_offset _ _ _, jobWithPredicate_mask _ _ _⟩

/-- Writing the predicate words that are there changes nothing. -/
theorem jobWithPredicate_self (job : Vector Word 13) : jobWithPredicate job job[11] job[12] = job := by
  simp [jobWithPredicate]

/-- The derivation alone leaves the header's tail words and midstate in the job window (R159). -/
theorem hashesHeader_job_deriveMidstate (s : State) : HashesHeader s (deriveMidstate s).job := by
  have hhashes := hashesHeader_deriveMidstate s (deriveMidstate s).job[11] (deriveMidstate s).job[12]
  rwa [jobWithPredicate_self] at hhashes

/-- The digest of a trial on the derived job window is the double hash of the header (R154, R159). -/
theorem jobDigest_deriveMidstate (s : State) (n : Word) :
    (deriveMidstate s).jobDigest n = doubleHash (computeMidstate s.hdr) (headerTail s.hdr) n := by
  obtain ⟨htail, hmid⟩ := hashesHeader_job_deriveMidstate s
  rw [State.jobDigest, htail, hmid]

/-- HASH with its digest as the double hash of the header (R161). -/
theorem exec_hash_eq (s : State) :
    exec .hash s = .next { s with
      pending := none, job := (deriveMidstate s).job
      digest := doubleHash (computeMidstate s.hdr) (headerTail s.hdr) s.startNonce
      status := { s.status with state := .idle } } := by
  rw [← jobDigest_deriveMidstate]
  exact execHash_eq s

/-- Settles O13: HASH keeps the predicate words, which the derivation of the midstate does not write. -/
theorem hashWritesTheDigest : Obligations.HashWritesTheDigest := fun s =>
  ⟨_, exec_hash_eq s, hashesHeader_job_deriveMidstate s, rfl, rfl⟩

/-! ### The bytes of words -/

/-- The bytes of a word make it again (spec/20_memory.md R68). -/
theorem byteOf_append (w : Word) : byteOf w 3 ++ byteOf w 2 ++ byteOf w 1 ++ byteOf w 0 = w := by
  unfold byteOf
  simp (disch := decide) only [Nat.reduceMul, BitVec.extractLsb'_append_extractLsb'_eq_extractLsb']
  exact BitVec.extractLsb'_eq_self

/-- The bytes of the word that four bytes make are those bytes (spec/20_memory.md R68). -/
theorem wordBytes_append (a b c d : Byte) : wordBytes (a ++ b ++ c ++ d) = [a, b, c, d] := by
  unfold wordBytes byteOf
  simp (disch := decide) only [Nat.reduceMul, BitVec.extractLsb'_append_eq_of_le,
    BitVec.extractLsb'_append_eq_of_add_le, Nat.reduceSub, BitVec.extractLsb'_eq_self]

/-- The big-endian bytes of `bswap32 n` are those of `n`, least significant first (spec/20_memory.md R69). -/
theorem wordBytes_bswap32 (n : Word) : wordBytes (bswap32 n) = [byteOf n 0, byteOf n 1, byteOf n 2, byteOf n 3] :=
  wordBytes_append _ _ _ _

/-- Swapping the bytes of a word twice gives the word back (spec/00_scope.md R11). -/
theorem bswap32_bswap32 (w : Word) : bswap32 (bswap32 w) = w := by
  have hbytes := wordBytes_bswap32 w
  simp only [wordBytes, List.cons.injEq, and_true] at hbytes
  obtain ⟨h3, h2, h1, h0⟩ := hbytes
  rw [bswap32, h3, h2, h1, h0, byteOf_append]

theorem wordsBytes_append (vs ws : List Word) : wordsBytes (vs ++ ws) = wordsBytes vs ++ wordsBytes ws :=
  List.flatMap_append

theorem length_wordsBytes (ws : List Word) : (wordsBytes ws).length = 4 * ws.length := by
  induction ws with
  | nil => rfl
  | cons w ws ih =>
    have hcons : wordsBytes (w :: ws) = wordBytes w ++ wordsBytes ws := rfl
    have hword : (wordBytes w).length = 4 := rfl
    rw [hcons, List.length_append, ih, hword, List.length_cons]
    omega

/-- The words of a message of words are those words (spec/20_memory.md R68). -/
theorem bytesWords_wordsBytes (ws : List Word) : bytesWords (wordsBytes ws) = ws := by
  induction ws with
  | nil => rfl
  | cons w ws ih =>
    have hcons : bytesWords (wordsBytes (w :: ws)) =
        (byteOf w 3 ++ byteOf w 2 ++ byteOf w 1 ++ byteOf w 0) :: bytesWords (wordsBytes ws) := rfl
    rw [hcons, byteOf_append, ih]

/-- Zero words are zero bytes. -/
theorem wordsBytes_replicate_zero (n : Nat) : wordsBytes (List.replicate n 0) = List.replicate (4 * n) 0 := by
  have hzero : wordBytes 0 = List.replicate 4 0 := by decide
  induction n with
  | zero => rfl
  | succ n ih =>
    have hcons : wordsBytes (List.replicate (n + 1) 0) = wordBytes 0 ++ wordsBytes (List.replicate n 0) := rfl
    rw [hcons, ih, hzero, List.replicate_append_replicate]
    congr 1
    omega

/-! ### SHA-256 of a message of words -/

/-- SHA-256's padding of a message that is made of whole words, as words (R155). -/
def sha256PadWords (ws : List Word) : List Word :=
  let len : BitVec 64 := BitVec.ofNat 64 (32 * ws.length)
  ws ++ (0x80000000 :: List.replicate ((29 - ws.length % 16) % 16) 0) ++ [len.extractLsb' 32 32, len.extractLsb' 0 32]

/-- The padding's first byte and the three zero bytes after it are one word, the other zero bytes whole words. -/
theorem sha256Pad_wordsBytes (ws : List Word) : sha256Pad (wordsBytes ws) = wordsBytes (sha256PadWords ws) := by
  have hzeros : (119 - 4 * ws.length % 64) % 64 = 3 + 4 * ((29 - ws.length % 16) % 16) := by omega
  have hfirst : ∀ vs, wordsBytes (0x80000000 :: vs) = 0x80 :: (List.replicate 3 0 ++ wordsBytes vs) := fun _ => rfl
  simp only [sha256Pad, sha256PadWords, length_wordsBytes, wordsBytes_append, hfirst, wordsBytes_replicate_zero,
    List.replicate_append_replicate, hzeros, ← Nat.mul_assoc, Nat.reduceMul]

/-- SHA-256 of a message of words works on the words (R155, R156). -/
theorem sha256_wordsBytes (ws : List Word) :
    sha256 (wordsBytes ws) = wordsBytes (compressBlocks (sha256PadWords ws) initialHash).toList := by
  rw [sha256, sha256Pad_wordsBytes, bytesWords_wordsBytes]

/-- The padding of the 20 words of a header (R155). -/
theorem sha256PadWords_of_length_20 {ws : List Word} (h : ws.length = 20) :
    sha256PadWords ws = ws ++ [0x80000000, 0, 0, 0, 0, 0, 0, 0, 0, 0, 0, 0x00000280] := by
  simp [sha256PadWords, h]

/-- The padding of the 8 words of a digest (R155). -/
theorem sha256PadWords_of_length_8 {ws : List Word} (h : ws.length = 8) :
    sha256PadWords ws = ws ++ [0x80000000, 0, 0, 0, 0, 0, 0, 0x00000100] := by
  simp [sha256PadWords, h]

/-! ### The blocks of the double hash -/

/-- The words of a header without its nonce are those of its first block and its tail (R151, R152). -/
theorem take_header_words (hdr : Vector Word 20) :
    hdr.toList.take 19 = (headerFirstBlock hdr).toList ++ (headerTail hdr).toList := by
  match hdr with
  | ⟨⟨[_, _, _, _, _, _, _, _, _, _, _, _, _, _, _, _, _, _, _, _]⟩, _⟩ => rfl

/-- The first-round block ends a padded message of 20 words (R152, R155). -/
theorem toList_firstBlock (t : Vector Word 3) (n : Word) :
    (firstBlock t n).toList = t.toList ++ [bswap32 n, 0x80000000, 0, 0, 0, 0, 0, 0, 0, 0, 0, 0, 0x00000280] := by
  match t with
  | ⟨⟨[_, _, _]⟩, _⟩ => rfl

/-- The second-round block is a padded message of 8 words (R153, R155). -/
theorem toList_secondBlock (d : Vector Word 8) :
    (secondBlock d).toList = d.toList ++ [0x80000000, 0, 0, 0, 0, 0, 0, 0x00000100] := by
  match d with
  | ⟨⟨[_, _, _, _, _, _, _, _]⟩, _⟩ => rfl

/-- A message that begins with a block compresses it first (R150). -/
theorem compressBlocks_toList_append (b : Vector Word 16) (rest : List Word) (s : Vector Word 8) :
    compressBlocks (b.toList ++ rest) s = compressBlocks rest (compress b s) := by
  match b with
  | ⟨⟨[_, _, _, _, _, _, _, _, _, _, _, _, _, _, _, _]⟩, _⟩ => rfl

theorem compressBlocks_toList (b : Vector Word 16) (s : Vector Word 8) :
    compressBlocks b.toList s = compress b s := by
  simpa [compressBlocks] using compressBlocks_toList_append b [] s

/-- The padded header with nonce `n` is the block of the midstate and the first-round block (R151, R152, R155). -/
theorem sha256PadWords_header (hdr : Vector Word 20) (n : Word) :
    sha256PadWords (hdr.toList.take 19 ++ [bswap32 n]) =
      (headerFirstBlock hdr).toList ++ (firstBlock (headerTail hdr) n).toList := by
  rw [sha256PadWords_of_length_20 (by simp), take_header_words, toList_firstBlock]
  simp only [List.append_assoc, List.cons_append, List.nil_append]

/-- The padded digest is the second-round block (R153, R155). -/
theorem sha256PadWords_digest (d : Vector Word 8) : sha256PadWords d.toList = (secondBlock d).toList := by
  rw [sha256PadWords_of_length_8 d.length_toList, toList_secondBlock]

/-- SHA-256 of a header with nonce `n` goes through the midstate to the first digest (R151, R152). -/
theorem sha256_header_words (hdr : Vector Word 20) (n : Word) :
    sha256 (wordsBytes (hdr.toList.take 19 ++ [bswap32 n])) =
      wordsBytes (firstDigest (computeMidstate hdr) (headerTail hdr) n).toList := by
  rw [sha256_wordsBytes, sha256PadWords_header, compressBlocks_toList_append, compressBlocks_toList, firstDigest,
    computeMidstate]

/-- SHA-256 of a digest compresses its second-round block from the initial value (R153, R154). -/
theorem sha256_digest_words (d : Vector Word 8) :
    sha256 (wordsBytes d.toList) = wordsBytes (compress (secondBlock d) initialHash).toList := by
  rw [sha256_wordsBytes, sha256PadWords_digest, compressBlocks_toList]

/-! ### The double hash as SHA-256 twice -/

/-- The bytes hashed for nonce `n` are those of the header's words with `bswap32 n` in place of the last (R156). -/
theorem headerBytes_eq (hdr : Vector Word 20) (n : Word) :
    headerBytes hdr n = wordsBytes (hdr.toList.take 19 ++ [bswap32 n]) := by
  have hnonce : wordsBytes [bswap32 n] = wordBytes (bswap32 n) := List.flatMap_singleton _ _
  rw [wordsBytes_append, hnonce, wordBytes_bswap32, headerBytes]

/-- With the nonce of its own last word those bytes are the header's as stored (R157). -/
theorem headerBytes_headerNonce (hdr : Vector Word 20) : headerBytes hdr (headerNonce hdr) = wordsBytes hdr.toList := by
  have hlast : hdr.toList.take 19 ++ [hdr[19]] = hdr.toList := by
    rw [← Vector.getElem_toList (by simp), List.take_append_getElem, List.take_of_length_le (by simp)]
  rw [headerBytes_eq, headerNonce, bswap32_bswap32, hlast]

/-- The double hash is SHA-256 applied twice to the bytes of the header with nonce `n` (R154 to R156). -/
theorem sha256_sha256_headerBytes (hdr : Vector Word 20) (n : Word) :
    sha256 (sha256 (headerBytes hdr n)) =
      wordsBytes (doubleHash (computeMidstate hdr) (headerTail hdr) n).toList := by
  rw [headerBytes_eq, sha256_header_words, sha256_digest_words, doubleHash]

/-- Settles O14: HASH leaves the double hash for `START_NONCE`. -/
theorem hashIsDoubleSha256OfTheHeaderBytes : Obligations.HashIsDoubleSha256OfTheHeaderBytes := fun s =>
  ⟨_, exec_hash_eq s, (sha256_sha256_headerBytes s.hdr s.startNonce).symm⟩

/-- Settles O15: with the nonce of `HDR[19]` the bytes hashed are the header's own. -/
theorem storedNonceHashesTheHeaderAsStored : Obligations.StoredNonceHashesTheHeaderAsStored := by
  intro hdr
  rw [← headerBytes_headerNonce]
  exact (sha256_sha256_headerBytes hdr (headerNonce hdr)).symm

end Sys2Proof.Proofs
end

section
/-! No command reads `HDR[19]` (spec/42_sha256d.md R157, spec/30_encoding.md R85): each operation of a command's
execution commutes with replacing that word. -/

namespace Sys2Proof.Proofs

open Sys2Proof.Machine

/-- The state with another word in `HDR[19]`. -/
def withHeaderNonce (w : Word) (s : State) : State := { s with hdr := s.hdr.set 19 w }

/-! ### What the operations read of the header -/

/-- The midstate is computed from `HDR[0..15]` (R151). -/
theorem computeMidstate_set_nonce (hdr : Vector Word 20) (w : Word) :
    computeMidstate (hdr.set 19 w) = computeMidstate hdr := by
  simp [computeMidstate, headerFirstBlock]

/-- The tail words are `HDR[16..18]` (R152). -/
theorem headerTail_set_nonce (hdr : Vector Word 20) (w : Word) : headerTail (hdr.set 19 w) = headerTail hdr := by
  simp [headerTail]

theorem clearPending_withHeaderNonce (w : Word) (s : State) :
    (withHeaderNonce w s).clearPending = withHeaderNonce w s.clearPending := rfl

theorem legalConcurrency_withHeaderNonce (w : Word) (s : State) :
    (withHeaderNonce w s).legalConcurrency = s.legalConcurrency := rfl

theorem deriveMidstate_withHeaderNonce (w : Word) (s : State) :
    deriveMidstate (withHeaderNonce w s) = withHeaderNonce w (deriveMidstate s) := by
  simp only [deriveMidstate, withHeaderNonce, computeMidstate_set_nonce, headerTail_set_nonce]

/-- The predicate is derived from `HDR[18]` (spec/41_header_predicate.md R128). -/
theorem derivePredicate_withHeaderNonce (w : Word) (s : State) :
    derivePredicate (withHeaderNonce w s) = (derivePredicate s).map id (withHeaderNonce w) := by
  have hword : (withHeaderNonce w s).hdr[18] = s.hdr[18] := by simp [withHeaderNonce]
  unfold derivePredicate
  rw [hword]
  cases predicateOf s.hdr[18] <;> rfl

/-! ### The commands -/

/-- What execution answers on a state with another word in `HDR[19]`: the next state with that word there. -/
def SameButHeaderNonce (w : Word) (m : State → Host.Outcome State Fault Refusal) (s : State) : Prop :=
  ∃ t, m s = .next t ∧ m (withHeaderNonce w s) = .next (withHeaderNonce w t)

theorem execPrepare_withHeaderNonce (w : Word) (s : State) : SameButHeaderNonce w execPrepare s := by
  unfold SameButHeaderNonce execPrepare
  rw [clearPending_withHeaderNonce, deriveMidstate_withHeaderNonce, derivePredicate_withHeaderNonce]
  match derivePredicate (deriveMidstate s.clearPending) with
  | (true, s') => exact ⟨_, rfl, rfl⟩
  | (false, s') => exact ⟨_, rfl, rfl⟩

theorem execHash_withHeaderNonce (w : Word) (s : State) : SameButHeaderNonce w execHash s := by
  refine ⟨_, execHash_eq s, ?_⟩
  rw [execHash_eq, deriveMidstate_withHeaderNonce]
  rfl

theorem execTest_withHeaderNonce (w : Word) (s : State) : SameButHeaderNonce w execTest s := by
  unfold SameButHeaderNonce execTest
  rw [clearPending_withHeaderNonce, derivePredicate_withHeaderNonce]
  match derivePredicate s.clearPending with
  | (true, s') => exact ⟨_, rfl, rfl⟩
  | (false, s') => exact ⟨_, rfl, rfl⟩

theorem execSearch_withHeaderNonce (w : Word) (s : State) : SameButHeaderNonce w execSearch s := by
  simp only [SameButHeaderNonce, execSearch, clearPending_withHeaderNonce, legalConcurrency_withHeaderNonce,
    deriveMidstate_withHeaderNonce, derivePredicate_withHeaderNonce]
  cases s.clearPending.legalConcurrency with
  | false => exact ⟨_, rfl, rfl⟩
  | true =>
    match derivePredicate (deriveMidstate s.clearPending) with
    | (true, s') => exact ⟨_, rfl, rfl⟩
    | (false, s') => exact ⟨_, rfl, rfl⟩

/-- Settles O22, command by command. -/
theorem noCommandReadsTheHeaderNonce : Obligations.NoCommandReadsTheHeaderNonce := by
  intro i s w
  cases i with
  | prepare => exact execPrepare_withHeaderNonce w s
  | hash => exact execHash_withHeaderNonce w s
  | test => exact execTest_withHeaderNonce w s
  | search => exact execSearch_withHeaderNonce w s

end Sys2Proof.Proofs
end

section
/-! The lanes of a search (spec/43_search.md R171 to R186): the launch, what a lane's turn makes of its lane and of the
result cell, and the finish step. -/

namespace Sys2Proof.Proofs

open Sys2Proof.Machine

/-! ### The offsets and their nonces -/

/-- The trial nonce of an offset is the nonce at which a hit of the search is asked for (R172, R188). -/
theorem trialNonce_eq (start : Word) (k : BitVec 33) : trialNonce start k = start + BitVec.ofNat 32 k.toNat := by
  rw [trialNonce, BitVec.ofNat_toNat]

/-- Whether the trial of an offset hits (R182, R188). -/
theorem hits_trialNonce (s : State) (k : BitVec 33) : s.hits (trialNonce s.startNonce k) = s.hitAt k.toNat := by
  rw [trialNonce_eq, State.hitAt]

/-- Every nonce is that of the offset by which it exceeds the start nonce (R173). -/
theorem exists_offset (start n : Word) : ∃ k, k < 2 ^ 32 ∧ start + BitVec.ofNat 32 k = n :=
  ⟨(n - start).toNat, (n - start).isLt, by
    rw [BitVec.ofNat_toNat, BitVec.setWidth_eq, BitVec.add_comm, BitVec.sub_add_cancel]⟩

/-- Settles O26: the offset is `n - start`, and below `2^32` no other one has the same low 32 bits. -/
theorem everyNonceHasExactlyOneOffset : Obligations.EveryNonceHasExactlyOneOffset := by
  intro start n
  obtain ⟨k, hk, rfl⟩ := exists_offset start n
  have htoNat : (BitVec.ofNat 33 k).toNat = k := by
    rw [BitVec.toNat_ofNat]
    omega
  refine ⟨BitVec.ofNat 33 k, by omega, by rw [trialNonce_eq, htoNat], fun k' hk' hsame => ?_⟩
  have hlow : BitVec.ofNat 32 k'.toNat = BitVec.ofNat 32 k := by
    rw [trialNonce_eq] at hsame
    exact (BitVec.add_right_inj start).mp hsame
  have hmod := congrArg BitVec.toNat hlow
  rw [BitVec.toNat_ofNat, BitVec.toNat_ofNat] at hmod
  exact BitVec.eq_of_toNat_eq (by omega)

/-! ### The launch -/

/-- The lane count is legal exactly within the bounds of R177. -/
theorem legalConcurrency_eq_true {s : State} :
    s.legalConcurrency = true ↔ 1 ≤ s.concurrency.toNat ∧ s.concurrency.toNat ≤ s.numWorkers := by
  simp [State.legalConcurrency]

theorem legalConcurrency_eq_false {s : State} :
    s.legalConcurrency = false ↔ s.concurrency.toNat = 0 ∨ s.numWorkers < s.concurrency.toNat := by
  rw [← Bool.not_eq_true, legalConcurrency_eq_true]
  omega

/-- Settles O19: the lane count is checked before anything is derived. -/
theorem searchWithBadLaneCountRaisesBadConcurrency : Obligations.SearchWithBadLaneCountRaisesBadConcurrency := by
  intro s hbad
  have hillegal := legalConcurrency_eq_false.mpr hbad
  obtain ⟨-, hexec⟩ | ⟨hlegal, -⟩ | ⟨hlegal, -⟩ := execSearch_cases s
  · exact hexec
  all_goals exact absurd hlegal (by simp [hillegal])

/-- Settles O20: with a legal lane count it is the derivation of the predicate that fails. -/
theorem searchOutsideDomainRaisesPredRange : Obligations.SearchOutsideDomainRaisesPredRange := by
  intro s hpos hle hdomain
  have hlegal := legalConcurrency_eq_true.mpr ⟨hpos, hle⟩
  obtain ⟨hillegal, -⟩ | ⟨-, -, hexec⟩ | ⟨-, p, hp, -⟩ := execSearch_cases s
  · exact absurd hlegal (by simp [hillegal])
  · exact ⟨_, hexec, hashesHeader_deriveMidstate s _ _, jobWithPredicate_offset _ _ _, jobWithPredicate_mask _ _ _⟩
  · obtain ⟨hin, -⟩ := holdsPredicate_of_predicateOf hp s.job
    exact absurd hin hdomain

/-- The state that a launch with the job window `job` leaves (R178). -/
def launchedWith (job : Vector Word 13) (s : State) : State :=
  { s with
    pending := none, job := job, resultNonce := 0, lanes := s.lanes.mapIdx (launchLane s.concurrency.toNat)
    searching := true, status := { s.status with resultValid := false } }

/-- With a legal lane count and the exponent in the domain SEARCH launches the lanes (R177, R178). -/
theorem exec_search_launches {s : State} (hpos : 1 ≤ s.concurrency.toNat) (hle : s.concurrency.toNat ≤ s.numWorkers)
    (hdomain : s.inDomain) :
    ∃ job, exec .search s = .next (launchedWith job s) ∧ HashesHeader s job ∧ HoldsPredicate s job := by
  have hlegal := legalConcurrency_eq_true.mpr ⟨hpos, hle⟩
  obtain ⟨hillegal, -⟩ | ⟨-, hp, -⟩ | ⟨-, p, hp, hexec⟩ := execSearch_cases s
  · exact absurd hlegal (by simp [hillegal])
  · exact absurd hdomain (predicateOf_hdr_eq_none_iff.mp hp)
  · obtain ⟨-, hholds⟩ := holdsPredicate_of_predicateOf hp (deriveMidstate s).job
    exact ⟨_, hexec, hashesHeader_deriveMidstate s _ _, hholds⟩

/-- A lane that takes part starts in RUN at its own number (R178). -/
theorem launchLane_of_lt {c i : Nat} (h : i < c) (l : Lane) :
    launchLane c i l = { l with phase := .run, k := BitVec.ofNat 33 i, hashCount := 0 } := if_pos h

/-- A lane that takes no part is IDLE (R178, R179). -/
theorem launchLane_of_ge {c i : Nat} (h : c ≤ i) (l : Lane) :
    launchLane c i l = { l with phase := .idle, k := 0, hashCount := 0 } := if_neg (by omega)

/-- The number of a lane that takes part fits its offset, for it is below a 32-bit lane count. -/
theorem toNat_ofNat_of_lt_concurrency {s : State} {i : Nat} (h : i < s.concurrency.toNat) :
    (BitVec.ofNat 33 i).toNat = i := by
  have hc := s.concurrency.isLt
  rw [BitVec.toNat_ofNat]
  omega

/-- Settles O18: the launch treats each lane by whether it takes part. -/
theorem searchLaunchesTheLanes : Obligations.SearchLaunchesTheLanes := by
  intro s hpos hle hdomain
  obtain ⟨job, hexec, hhashes, hholds⟩ := exec_search_launches hpos hle hdomain
  refine ⟨job, _, hexec, hhashes, hholds, List.length_mapIdx, fun i l hlane => ?_⟩
  refine ⟨launchLane s.concurrency.toNat i l, by rw [List.getElem?_mapIdx, hlane]; rfl, ?_⟩
  by_cases hi : i < s.concurrency.toNat
  · rw [launchLane_of_lt hi]
    exact ⟨rfl, rfl, fun _ => ⟨rfl, toNat_ofNat_of_lt_concurrency hi⟩, fun hge => absurd hi (by omega)⟩
  · rw [launchLane_of_ge (by omega)]
    exact ⟨rfl, rfl, fun hlt => absurd hlt hi, fun _ => ⟨rfl, rfl⟩⟩

/-! ### A lane's turn -/

/-- The lane after its begin step (R181). -/
def begunLane (s : State) (l : Lane) : Lane := { l with phase := beginPhase s.status.resultValid l.k }

/-- The lane after a trial that missed (R182). -/
def missedLane (s : State) (l : Lane) : Lane :=
  { l.counted s (trialNonce s.startNonce l.k) with k := l.k + s.concurrency.setWidth 33, phase := .run }

/-- The lane after a trial that hit (R182). -/
def hitLane (s : State) (l : Lane) : Lane := { l.counted s (trialNonce s.startNonce l.k) with phase := .found }

/-- What a lane's turn makes of `s` (R179, R181, R182): nothing, a begin step, or a complete step by its trial. -/
inductive LaneOp (s : State) (i : Nat) : State → Prop
  | stays (hstopped : ∀ l, s.lanes[i]? = some l → l.active = false) : LaneOp s i s
  | begins (l : Lane) (hlane : s.lanes[i]? = some l) (hrun : l.phase = .run) :
      LaneOp s i (s.setLane i (begunLane s l))
  | misses (l : Lane) (hlane : s.lanes[i]? = some l) (hpend : l.phase = .pend) (hmiss : s.hitAt l.k.toNat = false) :
      LaneOp s i (s.setLane i (missedLane s l))
  | hits (l : Lane) (hlane : s.lanes[i]? = some l) (hpend : l.phase = .pend) (hhit : s.hitAt l.k.toNat = true) :
      LaneOp s i ((publish (trialNonce s.startNonce l.k) s).setLane i (hitLane s l))

/-- A lane's turn is one of these. -/
theorem laneOp_laneStep (s : State) (i : Nat) : LaneOp s i (laneStep i s) := by
  obtain ⟨hstopped, hstep⟩ | ⟨l, hlane, hrun, hstep⟩ | ⟨l, hlane, hpend, hstep⟩ := laneStep_cases i s <;> rw [hstep]
  · exact .stays hstopped
  · exact .begins l hlane hrun
  · obtain ⟨hhit, hc⟩ | ⟨hmiss, hc⟩ := completeStep_cases i l s <;> rw [hc]
    · exact .hits l hlane hpend ((hits_trialNonce s l.k).symm.trans hhit)
    · exact .misses l hlane hpend ((hits_trialNonce s l.k).symm.trans hmiss)

/-- A turn of a lane in RUN is its begin step. -/
theorem laneStep_of_run {s : State} {i : Nat} {l : Lane} (hlane : s.lanes[i]? = some l) (hrun : l.phase = .run) :
    laneStep i s = s.setLane i (begunLane s l) := by
  simp only [laneStep, hlane, hrun, beginStep, begunLane]

/-- A turn of a lane in PEND at an offset that misses. -/
theorem laneStep_of_miss {s : State} {i : Nat} {l : Lane} (hlane : s.lanes[i]? = some l) (hpend : l.phase = .pend)
    (hmiss : s.hitAt l.k.toNat = false) : laneStep i s = s.setLane i (missedLane s l) := by
  rw [← hits_trialNonce] at hmiss
  simp only [laneStep, hlane, hpend, completeStep, hmiss]
  rfl

/-- A turn of a lane in PEND at an offset that hits. -/
theorem laneStep_of_hit {s : State} {i : Nat} {l : Lane} (hlane : s.lanes[i]? = some l) (hpend : l.phase = .pend)
    (hhit : s.hitAt l.k.toNat = true) :
    laneStep i s = (publish (trialNonce s.startNonce l.k) s).setLane i (hitLane s l) := by
  rw [← hits_trialNonce] at hhit
  simp only [laneStep, hlane, hpend, completeStep, hhit, if_true]
  rfl

/-- A turn of a stopped or absent lane. -/
theorem laneStep_of_stopped {s : State} {i : Nat} (hstopped : ∀ l, s.lanes[i]? = some l → l.active = false) :
    laneStep i s = s := by
  obtain ⟨-, hstay⟩ | ⟨l, hlane, hrun, -⟩ | ⟨l, hlane, hpend, -⟩ := laneStep_cases i s
  · exact hstay
  · exact absurd (active_eq_true.mpr (.inl hrun)) (by simp [hstopped l hlane])
  · exact absurd (active_eq_true.mpr (.inr hpend)) (by simp [hstopped l hlane])

/-- The phase in which a begin step leaves a lane (R181). -/
theorem beginPhase_cases (v : Bool) (k : BitVec 33) :
    (2 ^ 32 ≤ k.toNat ∧ beginPhase v k = .exh) ∨ (k.toNat < 2 ^ 32 ∧ v = true ∧ beginPhase v k = .found) ∨
      (k.toNat < 2 ^ 32 ∧ v = false ∧ beginPhase v k = .pend) := by
  unfold beginPhase
  by_cases hk : k.toNat ≥ 2 ^ 32
  · exact .inl ⟨hk, if_pos hk⟩
  · cases v with
    | true => exact .inr (.inl ⟨by omega, rfl, by rw [if_neg hk, if_pos rfl]⟩)
    | false => exact .inr (.inr ⟨by omega, rfl, by rw [if_neg hk, if_neg (by decide)]⟩)

/-- A miss advances the offset by the lane count, modulo `2^33` (R182). -/
theorem toNat_missedLane_k (s : State) (l : Lane) :
    (missedLane s l).k.toNat = (l.k.toNat + s.concurrency.toNat) % 2 ^ 33 := by
  have hc := s.concurrency.isLt
  simp only [missedLane, BitVec.toNat_add, BitVec.toNat_setWidth]
  omega

/-- Settles O23, by the three outcomes of the begin step's checks. -/
theorem laneBeginChecksItsStopConditions : Obligations.LaneBeginChecksItsStopConditions := by
  intro s i l hlane hrun
  refine ⟨_, congrArg Host.Outcome.next (laneStep_of_run hlane hrun), ?_⟩
  obtain ⟨hk, hp⟩ | ⟨hk, hv, hp⟩ | ⟨hk, hv, hp⟩ := beginPhase_cases s.status.resultValid l.k
  · exact ⟨fun _ => hp, fun hlt => by omega, fun hlt => by omega⟩
  · exact ⟨fun hge => by omega, fun _ _ => hp, fun _ hinvalid => by simp [hv] at hinvalid⟩
  · exact ⟨fun hge => by omega, fun _ hvalid => by simp [hv] at hvalid, fun _ _ => hp⟩

/-- Settles O24: a hit publishes only into an empty result cell; a miss moves the lane alone. -/
theorem laneTrialCountsAndPublishes : Obligations.LaneTrialCountsAndPublishes := by
  intro s i l hlane hpend _
  cases htrial : s.hitAt l.k.toNat with
  | true =>
    refine ⟨_, hitLane s l, congrArg Host.Outcome.next (laneStep_of_hit hlane hpend htrial), ?_, rfl, ?_, nofun⟩
    · obtain ⟨-, hp⟩ | ⟨-, hp⟩ := publish_cases (trialNonce s.startNonce l.k) s <;> rw [hp] <;> rfl
    refine fun _ => ⟨rfl, rfl, fun hinvalid => ?_, fun hvalid => ?_⟩ <;>
      obtain ⟨hv, hp⟩ | ⟨hv, hp⟩ := publish_cases (trialNonce s.startNonce l.k) s
    · exact absurd hv (by simp [hinvalid])
    · rw [hp, trialNonce_eq]
      rfl
    · rw [hp]
      rfl
    · exact absurd hv (by simp [hvalid])
  | false =>
    exact ⟨_, missedLane s l, congrArg Host.Outcome.next (laneStep_of_miss hlane hpend htrial), rfl, rfl, nofun,
      fun _ => ⟨rfl, toNat_missedLane_k s l, rfl⟩⟩

/-- Settles O25: a lane that is neither in RUN nor in PEND has no enabled step. -/
theorem stoppedLaneTakesNoStep : Obligations.StoppedLaneTakesNoStep := fun _ _ hstopped =>
  congrArg Host.Outcome.next (laneStep_of_stopped fun l hlane => active_eq_false.mpr (hstopped l hlane))

/-! ### The finish step -/

/-- Settles O27: the finish step is enabled exactly when no lane is active. -/
theorem searchFinishesWhenEveryLaneHasStopped : Obligations.SearchFinishesWhenEveryLaneHasStopped := by
  intro s hpending hs
  refine ⟨fun hstopped => ?_, fun ⟨l, hmem, hactive⟩ => ?_⟩ <;>
    obtain ⟨i, hsome, -⟩ | ⟨-, hfinish, hturn⟩ | ⟨-, hfinish, hturn⟩ := controllerStep_cases s
  · simp [hpending] at hsome
  · exact hturn
  · exact absurd (canFinish_eq_true.mpr ⟨hs, fun l hl => active_eq_false.mpr (hstopped l hl)⟩) (by simp [hfinish])
  · simp [hpending] at hsome
  · obtain ⟨-, hstopped⟩ := canFinish_eq_true.mp hfinish
    exact absurd (active_eq_true.mpr hactive) (by simp [hstopped l hmem])
  · exact hturn

end Sys2Proof.Proofs
end

section
/-! What a turn leaves unchanged of a search (spec/43_search.md R176, R183, R184, spec/44_stats.md R200): the frame of a
lane's turn, and which turns move a lane. -/

namespace Sys2Proof.Proofs

open Sys2Proof.Machine

/-! ### What a turn leaves of a search -/

/-- The result cell after a publish: only an empty one takes the nonce (R183). -/
theorem publish_eq (n : Word) (s : State) :
    publish n s = { s with
      resultNonce := if s.status.resultValid = true then s.resultNonce else n
      status := { s.status with resultValid := true } } := by
  obtain ⟨hv, hp⟩ | ⟨hv, hp⟩ := publish_cases n s <;> rw [hp]
  · rw [if_pos hv]
    exact congrArg (fun v => { s with status := { s.status with resultValid := v } }) hv
  · rw [if_neg (by simp [hv])]

/-- A lane's turn changes the lanes and the result cell at most (R176, R183). -/
theorem laneOp_frame {s t : State} {i : Nat} (hop : LaneOp s i t) :
    ∃ lanes n v, t = { s with lanes := lanes, resultNonce := n, status := { s.status with resultValid := v } } := by
  cases hop with
  | stays => exact ⟨_, _, _, rfl⟩
  | begins => exact ⟨_, _, _, rfl⟩
  | misses => exact ⟨_, _, _, rfl⟩
  | hits l =>
    rw [publish_eq]
    exact ⟨_, _, _, rfl⟩

/-- A lane's turn leaves the number of lanes and every other lane as they are (R176). -/
theorem laneOp_other {s t : State} {i : Nat} (hop : LaneOp s i t) :
    t.lanes.length = s.lanes.length ∧ ∀ j, j ≠ i → t.lanes[j]? = s.lanes[j]? := by
  cases hop with
  | stays => exact ⟨rfl, fun _ _ => rfl⟩
  | begins => exact ⟨List.length_set, fun _ hj => List.getElem?_set_ne hj.symm⟩
  | misses => exact ⟨List.length_set, fun _ hj => List.getElem?_set_ne hj.symm⟩
  | hits l =>
    rw [publish_eq]
    exact ⟨List.length_set, fun _ hj => List.getElem?_set_ne hj.symm⟩

/-- The host writes no lane (R200, spec/20_memory.md R66). -/
theorem hostOp_keeps_lanes {s t : State} (hop : HostOp s t) : t.lanes = s.lanes := by
  cases hop <;> rfl

/-- No command but SEARCH writes a lane (R176). -/
theorem execOp_keeps_lanes {i : Instr} {s t : State} (hop : ExecOp s i t) (hi : i ≠ .search) : t.lanes = s.lanes := by
  cases hop with
  | completed => rfl
  | raised => rfl
  | launched => exact absurd rfl hi

/-- With SEARCH not pending the controller writes no lane (R176). -/
theorem controllerStep_keeps_lanes {s t : State} (h : controllerStep s = .next t) (hsearch : s.pending ≠ some .search) :
    t.lanes = s.lanes := by
  obtain ⟨i, hpending, hc⟩ | ⟨-, -, hc⟩ | ⟨-, -, hc⟩ := controllerStep_cases s <;> rw [hc] at h
  · exact execOp_keeps_lanes (execOp_of_exec h) fun heq => hsearch (heq ▸ hpending)
  · cases h
    rfl
  · cases h
    rfl

/-- Settles O30, turn by turn. -/
theorem laneStateIsPrivate : Obligations.LaneStateIsPrivate := by
  intro a s t i hlane hreset hsearch hturn
  cases a with
  | host => rw [hostOp_keeps_lanes (hostOp_of_hostStep hturn)]; exact ⟨rfl, rfl⟩
  | controller => rw [controllerStep_keeps_lanes hturn (hsearch rfl)]; exact ⟨rfl, rfl⟩
  | lane j =>
    cases hturn
    obtain ⟨hlength, hother⟩ := laneOp_other (laneOp_laneStep s j)
    exact ⟨hother i fun heq => hlane (heq ▸ rfl), hlength⟩
  | reset => exact absurd rfl hreset

/-- What a turn that is no reset can be, with each agent's own outcome (spec/00_scope.md R13). -/
theorem takeTurn_cases {a : Turn} {s t : State} (hreset : a ≠ .reset) (h : takeTurn a s = .next t) :
    HostOp s t ∨ controllerStep s = .next t ∨ ∃ i, LaneOp s i t := by
  cases a with
  | host => exact .inl (hostOp_of_hostStep h)
  | controller => exact .inr (.inl h)
  | lane i =>
    cases h
    exact .inr (.inr ⟨i, laneOp_laneStep s i⟩)
  | reset => exact absurd rfl hreset

/-- What a step that is no reset can be, its turn or its choice used up (spec/00_scope.md R13). -/
theorem step_turns_of_no_reset {s t : State} (h : step s = .next t) (hreset : s.turns.head? ≠ some .reset) :
    ∃ turns choices, HostOp { s with turns := turns, choices := choices } t ∨
      controllerStep { s with turns := turns, choices := choices } = .next t ∨
      ∃ i, LaneOp { s with turns := turns, choices := choices } i t := by
  obtain ⟨a, rest, hturns, hturn⟩ | ⟨-, a, hfree, hturn⟩ | ⟨-, -, rfl⟩ := step_cases h
  · refine ⟨rest, s.choices, takeTurn_cases ?_ hturn⟩
    rintro rfl
    exact hreset (by rw [hturns]; rfl)
  · refine ⟨s.turns, s.choices + 1, takeTurn_cases ?_ hturn⟩
    rintro rfl
    exact absurd (freeTurn_enabled hfree) (by simp [turnEnabled])
  · exact ⟨t.turns, t.choices, .inl (.quiet _ _)⟩

/-- With a result, a lane's own turn ends its trial or stops it (R181, R184). -/
theorem laneOp_drains {s t : State} {i : Nat} (hop : LaneOp s i t) (hvalid : s.status.resultValid = true) {l l' : Lane}
    (hl : s.lanes[i]? = some l) (hl' : t.lanes[i]? = some l') :
    l' = l ∨ (l.phase = .run ∧ (l'.phase = .found ∨ l'.phase = .exh) ∧ l'.hashCount = l.hashCount) ∨
      (l.phase = .pend ∧ l'.phase ≠ .pend ∧ l'.hashCount = l.hashCount + 1) := by
  obtain ⟨hi, -⟩ := List.getElem?_eq_some_iff.mp hl
  have hset : ∀ x : Lane, (s.lanes.set i x)[i]? = some x := fun x => List.getElem?_set_self hi
  cases hop with
  | stays => exact .inl (Option.some.inj (hl'.symm.trans hl))
  | begins m hlane hrun =>
    cases hlane.symm.trans hl
    cases (hset _).symm.trans hl'
    refine .inr (.inl ⟨hrun, ?_, rfl⟩)
    obtain ⟨-, hp⟩ | ⟨-, -, hp⟩ | ⟨-, hinvalid, -⟩ := beginPhase_cases s.status.resultValid l.k
    · exact .inr hp
    · exact .inl hp
    · simp [hvalid] at hinvalid
  | misses m hlane hpend hmiss =>
    cases hlane.symm.trans hl
    cases (hset _).symm.trans hl'
    exact .inr (.inr ⟨hpend, nofun, rfl⟩)
  | hits m hlane hpend hhit =>
    rw [publish_eq] at hl'
    cases hlane.symm.trans hl
    cases (hset _).symm.trans hl'
    exact .inr (.inr ⟨hpend, nofun, rfl⟩)

/-- Settles O28: a step that is neither a launch nor a reset moves a lane by its own turn alone. -/
theorem drainCompletesAtMostOneTrialPerLane : Obligations.DrainCompletesAtMostOneTrialPerLane := by
  intro s t i l l' hvalid hsearch hreset hl hl' hstep
  have same : t.lanes[i]? = s.lanes[i]? → l' = l := fun heq =>
    Option.some.inj (hl'.symm.trans (heq.trans hl))
  obtain ⟨turns, choices, hhost | hcontroller | ⟨j, hop⟩⟩ := step_turns_of_no_reset hstep hreset
  · exact .inl (same (by rw [hostOp_keeps_lanes hhost]))
  · exact .inl (same (by rw [controllerStep_keeps_lanes hcontroller hsearch]))
  · by_cases hij : i = j
    · subst hij
      exact laneOp_drains hop hvalid hl hl'
    · obtain ⟨-, hother⟩ := laneOp_other hop
      exact .inl (same (hother i hij))

end Sys2Proof.Proofs
end

section
/-! The progress invariant of a running search (spec/43_search.md R171 to R185, spec/44_stats.md R200): each turn of a
lane keeps it, and a launch establishes it. -/

namespace Sys2Proof.Proofs

open Sys2Proof.Machine

/-! ### What the invariant speaks of -/

/-- The operands that a search reads are the same in both states (spec/10_state.md R49). -/
structure SameOperands (s t : State) : Prop where
  start_eq : t.startNonce = s.startNonce
  count_eq : t.concurrency = s.concurrency
  job_eq : t.job = s.job

/-- A hit depends on the job window alone (R182). -/
theorem hits_congr {s t : State} (hjob : t.job = s.job) (n : Word) : t.hits n = s.hits n := by
  simp only [State.hits, State.jobTest, State.jobDigest, hjob]

theorem hitAt_congr {s t : State} (h : SameOperands s t) (k : Nat) : t.hitAt k = s.hitAt k := by
  rw [State.hitAt, State.hitAt, h.start_eq, hits_congr h.job_eq]

theorem laneCount_congr {s t : State} (h : SameOperands s t) : t.laneCount = s.laneCount := by
  rw [State.laneCount, State.laneCount, h.count_eq]

/-- The progress of a lane is measured by the operands alone. -/
theorem laneProgress_congr {s t : State} (h : SameOperands s t) {i : Nat} {l : Lane} (hl : LaneProgress s i l) :
    LaneProgress t i l := by
  have hc := laneCount_congr h
  have hhit := hitAt_congr h
  exact {
    not_idle := hl.not_idle
    on_share := by rw [hc]; exact hl.on_share
    k_bound := by rw [hc]; exact hl.k_bound
    pend_below := hl.pend_below
    found_below := hl.found_below
    exh_above := hl.exh_above
    missed := by simp only [hc, hhit]; exact hl.missed
    counted := by simp only [hc, hhit]; exact hl.counted }

/-- Lane `i` holds `l` and stopped on the hit whose nonce is the result (R183, R188). -/
def StoppedOnResult (s : State) (i : Nat) (l : Lane) : Prop :=
  s.lanes[i]? = some l ∧ i < s.laneCount ∧ l.phase = .found ∧ s.resultNonce = trialNonce s.startNonce l.k ∧
    s.hitAt l.k.toNat = true ∧ l.k.toNat + s.laneCount = i + s.laneCount * l.hashCount.toNat

theorem stoppedOnResult_congr {s t : State} (h : SameOperands s t) {i : Nat} {l : Lane} (hl : StoppedOnResult s i l)
    (hlane : t.lanes[i]? = s.lanes[i]?) (hresult : t.resultNonce = s.resultNonce) : StoppedOnResult t i l := by
  unfold StoppedOnResult
  rw [hlane, hresult, laneCount_congr h, hitAt_congr h, h.start_eq]
  exact hl

/-- The invariant speaks of the operands, the lanes and the result cell. -/
theorem searchOk_congr {s t : State} (h : SearchOk s) (hops : SameOperands s t) (hlanes : t.lanes = s.lanes)
    (hvalid : t.status.resultValid = s.status.resultValid) (hresult : t.resultNonce = s.resultNonce) : SearchOk t := by
  have hc := laneCount_congr hops
  exact {
    count_pos := by rw [hc]; exact h.count_pos
    count_le := by rw [hc, State.numWorkers, hlanes]; exact h.count_le
    spare_idle := by rw [hc, hlanes]; exact h.spare_idle
    progress := by
      rw [hc, hlanes]
      exact fun i l hlane hi => laneProgress_congr hops (h.progress i l hlane hi)
    found_published := by rw [hvalid, hlanes]; exact h.found_published
    published := fun hv => by
      obtain ⟨i, l, hl⟩ := h.published (hvalid ▸ hv)
      exact ⟨i, l, stoppedOnResult_congr hops hl (by rw [hlanes]) hresult⟩ }

/-- The invariant does not speak of the model's own fields. -/
theorem searchOk_outside {s : State} (h : SearchOk s) (script : List HostStmt) (turns : List Turn) (choices : Nat)
    (lastRead : Option Word) :
    SearchOk { s with script := script, turns := turns, choices := choices, lastRead := lastRead } :=
  searchOk_congr h ⟨rfl, rfl, rfl⟩ rfl rfl rfl

/-! ### A lane's turn keeps its progress -/

/-- The offsets of a share are `c` apart: below `k + c` it has only `k` and the earlier ones (R171). -/
theorem eq_of_same_share {k k' c : Nat} (hle : k ≤ k') (hlt : k' < k + c) (hmod : k' % c = k % c) : k' = k := by
  have hmod' : k ≡ k' [MOD c] := hmod.symm
  have hdvd : c ∣ k' - k := (Nat.modEq_iff_dvd' hle).mp hmod'
  have hzero : k' - k = 0 := Nat.eq_zero_of_dvd_of_lt hdvd (by omega)
  omega

/-- The lane count fits the offsets' 33 bits beside `2^32` with room to spare (R177, R180). -/
theorem laneCount_lt (s : State) : s.laneCount < 2 ^ 32 := s.concurrency.isLt

/-- A counter never runs over: it is at most the offset, which is below `2^33` (R180, spec/44_stats.md R200). -/
theorem toNat_hashCount_succ {s : State} {i : Nat} {l : Lane} (hl : LaneProgress s i l) (hpos : 1 ≤ s.laneCount)
    (hpend : l.phase = .pend) :
    (l.hashCount + 1).toNat = l.hashCount.toNat + 1 ∧ l.k.toNat = i + s.laneCount * l.hashCount.toNat := by
  obtain hcounted | ⟨hfound, -⟩ := hl.counted
  · have hle : l.hashCount.toNat ≤ s.laneCount * l.hashCount.toNat := Nat.le_mul_of_pos_left _ hpos
    have hk := l.k.isLt
    refine ⟨?_, hcounted⟩
    exact BitVec.toNat_add_of_lt (show _ + 1 < _ by omega)
  · simp [hpend] at hfound

/-- The begin step keeps the offset and the counter; its checks say which phase comes (R181). -/
theorem begunLane_progress {s : State} {i : Nat} {l : Lane} (hl : LaneProgress s i l) (hrun : l.phase = .run) :
    LaneProgress s i (begunLane s l) := by
  have hcounted : l.k.toNat = i + s.laneCount * l.hashCount.toNat := by
    obtain hcounted | ⟨hfound, -⟩ := hl.counted
    · exact hcounted
    · simp [hrun] at hfound
  obtain ⟨hk, hp⟩ | ⟨hk, -, hp⟩ | ⟨hk, -, hp⟩ := beginPhase_cases s.status.resultValid l.k <;> rw [begunLane, hp]
  · exact { hl with
      not_idle := nofun, pend_below := nofun, found_below := nofun, exh_above := fun _ => hk
      counted := .inl hcounted }
  · exact { hl with
      not_idle := nofun, pend_below := nofun, found_below := fun _ => hk, exh_above := nofun
      counted := .inl hcounted }
  · exact { hl with
      not_idle := nofun, pend_below := fun _ => hk, found_below := nofun, exh_above := nofun
      counted := .inl hcounted }

/-- Below `2^32` a miss advances the offset by the lane count without wrapping (R180, R182). -/
theorem toNat_missedLane_k_of_lt (s : State) {l : Lane} (hk : l.k.toNat < 2 ^ 32) :
    (missedLane s l).k.toNat = l.k.toNat + s.laneCount := by
  have hc := laneCount_lt s
  rw [toNat_missedLane_k, ← State.laneCount]
  omega

/-- A miss adds its offset to the offsets tried, and counts it (R182). -/
theorem missedLane_progress {s : State} {i : Nat} {l : Lane} (hl : LaneProgress s i l) (hpos : 1 ≤ s.laneCount)
    (hpend : l.phase = .pend) (hmiss : s.hitAt l.k.toNat = false) : LaneProgress s i (missedLane s l) := by
  have hk := hl.pend_below hpend
  have hadvance := toNat_missedLane_k_of_lt s hk
  obtain ⟨hcount, hcounted⟩ := toNat_hashCount_succ hl hpos hpend
  exact {
    not_idle := nofun
    on_share := by rw [hadvance, Nat.add_mod_right]; exact hl.on_share
    k_bound := by rw [hadvance]; omega
    pend_below := nofun
    found_below := nofun
    exh_above := nofun
    missed := fun k hlt hbelow hshare => by
      rw [hadvance] at hlt
      by_cases hold : k < l.k.toNat
      · exact hl.missed k hold hbelow hshare
      · rw [eq_of_same_share (by omega) hlt (hshare.trans hl.on_share.symm)]
        exact hmiss
    counted := .inl (by
      show (missedLane s l).k.toNat = i + s.laneCount * (l.hashCount + 1).toNat
      rw [hadvance, hcount, hcounted]
      ring) }

/-- A hit stops the lane at its offset, its trial counted (R182). -/
theorem hitLane_counted {s : State} {i : Nat} {l : Lane} (hl : LaneProgress s i l) (hpos : 1 ≤ s.laneCount)
    (hpend : l.phase = .pend) :
    l.k.toNat + s.laneCount = i + s.laneCount * (hitLane s l).hashCount.toNat := by
  obtain ⟨hcount, hcounted⟩ := toNat_hashCount_succ hl hpos hpend
  show l.k.toNat + s.laneCount = i + s.laneCount * (l.hashCount + 1).toNat
  rw [hcount, hcounted]
  ring

theorem hitLane_progress {s : State} {i : Nat} {l : Lane} (hl : LaneProgress s i l) (hpos : 1 ≤ s.laneCount)
    (hpend : l.phase = .pend) (hhit : s.hitAt l.k.toNat = true) : LaneProgress s i (hitLane s l) :=
  { hl with
    not_idle := nofun
    pend_below := nofun
    found_below := fun _ => hl.pend_below hpend
    exh_above := nofun
    counted := .inr ⟨rfl, hhit, hitLane_counted hl hpos hpend⟩ }

/-! ### A lane's turn keeps the invariant -/

/-- An active lane takes part: the others are IDLE (R179). -/
theorem lt_laneCount_of_active {s : State} (h : SearchOk s) {i : Nat} {l : Lane} (hlane : s.lanes[i]? = some l)
    (hactive : l.active = true) : i < s.laneCount := by
  by_contra hi
  obtain ⟨hidle, -⟩ := h.spare_idle i l hlane (by omega)
  simp [Lane.active, hidle] at hactive

/-- The invariant after the turn of one lane that takes part, whatever it makes of its lane and of the result cell. -/
theorem searchOk_of_lane_set {s t : State} {i : Nat} {l' : Lane} (h : SearchOk s) (hops : SameOperands s t)
    (hi : i < s.laneCount) (hlanes : t.lanes = s.lanes.set i l') (hprogress : LaneProgress s i l')
    (hfound : t.status.resultValid = false → s.status.resultValid = false ∧ l'.phase ≠ .found)
    (hpublished : t.status.resultValid = true → ∃ j m, StoppedOnResult t j m) : SearchOk t := by
  have hc := laneCount_congr hops
  have hcases : ∀ j m, t.lanes[j]? = some m → (j = i ∧ m = l') ∨ (j ≠ i ∧ s.lanes[j]? = some m) := by
    intro j m hm
    rw [hlanes, List.getElem?_set] at hm
    grind
  exact {
    count_pos := by rw [hc]; exact h.count_pos
    count_le := by rw [hc, State.numWorkers, hlanes, List.length_set]; exact h.count_le
    spare_idle := fun j m hm hj => by
      obtain ⟨rfl, -⟩ | ⟨-, hold⟩ := hcases j m hm
      · omega
      · exact h.spare_idle j m hold (hc ▸ hj)
    progress := fun j m hm hj => by
      obtain ⟨rfl, rfl⟩ | ⟨-, hold⟩ := hcases j m hm
      · exact laneProgress_congr hops hprogress
      · exact laneProgress_congr hops (h.progress j m hold (hc ▸ hj))
    found_published := fun hv m hmem => by
      obtain ⟨hsv, hne⟩ := hfound hv
      obtain ⟨j, hm⟩ := List.mem_iff_getElem?.mp hmem
      obtain ⟨-, rfl⟩ | ⟨-, hold⟩ := hcases j m hm
      · exact hne
      · exact h.found_published hsv m (List.mem_of_getElem? hold)
    published := hpublished }

/-- A lane that was active is not the one that stopped on the result, so its turn leaves that one in place. -/
theorem exists_stoppedOnResult_of_set {s t : State} {i : Nat} {l l' : Lane} (h : SearchOk s) (hops : SameOperands s t)
    (hlane : s.lanes[i]? = some l) (hne : l.phase ≠ .found) (hlanes : t.lanes = s.lanes.set i l')
    (hvalid : s.status.resultValid = true) (hresult : t.resultNonce = s.resultNonce) :
    ∃ j m, StoppedOnResult t j m := by
  obtain ⟨j, m, hm⟩ := h.published hvalid
  have hm' : StoppedOnResult s j m := hm
  obtain ⟨hjm, -, hfound, -⟩ := hm
  refine ⟨j, m, stoppedOnResult_congr hops hm' ?_ hresult⟩
  rw [hlanes, List.getElem?_set_ne]
  rintro rfl
  cases hlane.symm.trans hjm
  exact hne hfound

/-- Every turn of a lane keeps the invariant (R181 to R183). -/
theorem laneOp_keeps_searchOk {s t : State} {i : Nat} (h : SearchOk s) (hop : LaneOp s i t) : SearchOk t := by
  cases hop with
  | stays => exact h
  | begins l hlane hrun =>
    have hi := lt_laneCount_of_active h hlane (active_eq_true.mpr (.inl hrun))
    have hops : SameOperands s (s.setLane i (begunLane s l)) := ⟨rfl, rfl, rfl⟩
    refine searchOk_of_lane_set h hops hi rfl (begunLane_progress (h.progress i l hlane hi) hrun) (fun hv => ⟨hv, ?_⟩)
      fun hv => exists_stoppedOnResult_of_set h hops hlane (by simp [hrun]) rfl hv rfl
    obtain ⟨-, hp⟩ | ⟨-, hvalid, -⟩ | ⟨-, -, hp⟩ := beginPhase_cases s.status.resultValid l.k
    · simp [begunLane, hp]
    · exact absurd hvalid (by simpa using hv)
    · simp [begunLane, hp]
  | misses l hlane hpend hmiss =>
    have hi := lt_laneCount_of_active h hlane (active_eq_true.mpr (.inr hpend))
    have hops : SameOperands s (s.setLane i (missedLane s l)) := ⟨rfl, rfl, rfl⟩
    exact searchOk_of_lane_set h hops hi rfl
      (missedLane_progress (h.progress i l hlane hi) h.count_pos hpend hmiss) (fun hv => ⟨hv, nofun⟩)
      fun hv => exists_stoppedOnResult_of_set h hops hlane (by simp [hpend]) rfl hv rfl
  | hits l hlane hpend hhit =>
    have hi := lt_laneCount_of_active h hlane (active_eq_true.mpr (.inr hpend))
    have hprogress := h.progress i l hlane hi
    rw [publish_eq]
    refine searchOk_of_lane_set (l' := hitLane s l) h ⟨rfl, rfl, rfl⟩ hi rfl
      (hitLane_progress hprogress h.count_pos hpend hhit) nofun fun _ => ?_
    cases hvalid : s.status.resultValid with
    | true =>
      exact exists_stoppedOnResult_of_set h ⟨rfl, rfl, rfl⟩ hlane (by simp [hpend]) rfl hvalid rfl
    | false =>
      obtain ⟨hlt, -⟩ := List.getElem?_eq_some_iff.mp hlane
      exact ⟨i, hitLane s l, List.getElem?_set_self hlt, hi, rfl, rfl, hhit,
        hitLane_counted hprogress h.count_pos hpend⟩

/-! ### A launch establishes the invariant -/

/-- A lane at its start: no earlier offset of its share, no trial yet (R178). -/
theorem launchLane_progress (s : State) {i : Nat} (hi : i < s.concurrency.toNat) (l : Lane) :
    LaneProgress s i (launchLane s.concurrency.toNat i l) := by
  have hk := toNat_ofNat_of_lt_concurrency hi
  have hc : s.laneCount = s.concurrency.toNat := rfl
  have hshare := Nat.mod_eq_of_lt hi
  rw [launchLane_of_lt hi]
  exact {
    not_idle := nofun
    on_share := by rw [hk, hc, hshare]
    k_bound := by rw [hk, hc]; omega
    pend_below := nofun
    found_below := nofun
    exh_above := nofun
    missed := fun k hlt _ hmod => by
      rw [hk] at hlt
      rw [hc, Nat.mod_eq_of_lt (by omega)] at hmod
      omega
    counted := .inl (by simp [hk]) }

/-- Every lane after a launch is the launched lane of before (R178). -/
theorem getElem?_launchedWith {job : Vector Word 13} {s : State} {i : Nat} {l : Lane}
    (hlane : (launchedWith job s).lanes[i]? = some l) :
    ∃ l₀, s.lanes[i]? = some l₀ ∧ l = launchLane s.concurrency.toNat i l₀ := by
  rw [launchedWith, List.getElem?_mapIdx, Option.map_eq_some_iff] at hlane
  obtain ⟨l₀, hl₀, rfl⟩ := hlane
  exact ⟨l₀, hl₀, rfl⟩

/-- A launch with a legal lane count establishes the invariant (R177, R178). -/
theorem launchedWith_searchOk (job : Vector Word 13) {s : State} (hlegal : s.legalConcurrency = true) :
    SearchOk (launchedWith job s) := by
  obtain ⟨hpos, hle⟩ := legalConcurrency_eq_true.mp hlegal
  exact {
    count_pos := hpos
    count_le := by
      rw [State.numWorkers, launchedWith, List.length_mapIdx]
      exact hle
    spare_idle := fun i l hlane hi => by
      obtain ⟨l₀, -, rfl⟩ := getElem?_launchedWith hlane
      rw [launchLane_of_ge (c := s.concurrency.toNat) hi]
      exact ⟨rfl, rfl, rfl⟩
    progress := fun i l hlane hi => by
      obtain ⟨l₀, -, rfl⟩ := getElem?_launchedWith hlane
      exact launchLane_progress (launchedWith job s) hi l₀
    found_published := fun _ l hmem => by
      obtain ⟨i, hlane⟩ := List.mem_iff_getElem?.mp hmem
      obtain ⟨l₀, -, rfl⟩ := getElem?_launchedWith hlane
      by_cases hi : i < s.concurrency.toNat
      · rw [launchLane_of_lt hi]
        nofun
      · rw [launchLane_of_ge (by omega)]
        nofun
    published := nofun }

/-- An execution after which a search runs, where none ran before, is a launch with a legal lane count (R177, R178). -/
theorem launchedWith_of_search_starts {i : Instr} {s t : State} (hexec : exec i s = .next t) (hs : s.searching = false)
    (ht : t.searching = true) : s.legalConcurrency = true ∧ ∃ job, t = launchedWith job s := by
  by_cases hi : i = .search
  · subst hi
    obtain ⟨-, hsearch⟩ | ⟨-, -, hsearch⟩ | ⟨hlegal, p, -, hsearch⟩ := execSearch_cases s <;>
      cases hsearch.symm.trans hexec
    · simp [hs] at ht
    · simp [hs] at ht
    · exact ⟨hlegal, _, rfl⟩
  · cases execOp_of_exec hexec with
    | completed => simp [hs] at ht
    | raised => simp [hs] at ht
    | launched => exact absurd rfl hi

/-! ### Every step keeps the invariant -/

/-- What a step that is no reset can be while a search runs: a host access that writes no operand, the finish step, or
nothing, or a lane's turn (R49, R186). -/
theorem step_while_searching {s t : State} (h : ControlOk s) (hs : s.searching = true)
    (hreset : s.turns.head? ≠ some .reset) (hstep : step s = .next t) :
    ∃ turns choices, HostOp { s with turns := turns, choices := choices } t ∨
      (s.canFinish = true ∧ t = finish { s with turns := turns, choices := choices }) ∨
      ∃ i, LaneOp { s with turns := turns, choices := choices } i t := by
  obtain ⟨-, hpending, -⟩ := busy_of_searching h hs
  obtain ⟨turns, choices, hhost | hcontroller | hlane⟩ := step_turns_of_no_reset hstep hreset
  · exact ⟨turns, choices, .inl hhost⟩
  · refine ⟨turns, choices, ?_⟩
    obtain ⟨i, hsome, -⟩ | ⟨-, hfinish, hc⟩ | ⟨-, -, hc⟩ :=
      controllerStep_cases { s with turns := turns, choices := choices }
    · exact absurd hsome (by simp [hpending])
    · rw [hc] at hcontroller
      cases hcontroller
      exact .inr (.inl ⟨hfinish, rfl⟩)
    · rw [hc] at hcontroller
      cases hcontroller
      exact .inl (.quiet _ _)
  · exact ⟨turns, choices, .inr (.inr hlane)⟩

/-- The host's turn keeps the invariant: its writes are dropped (R49). -/
theorem hostOp_keeps_searchOk {s t : State} (h : SearchOk s) (hbusy : s.status.state = .busy) (hop : HostOp s t) :
    SearchOk t := by
  obtain ⟨-, hstart, hconc, -⟩ := hostOp_keeps_operands hop hbusy
  obtain ⟨hjob, -, hvalid, hresult, -⟩ := hostOp_frame hop
  exact searchOk_congr h ⟨hstart, hconc, hjob⟩ (hostOp_keeps_lanes hop) hvalid hresult

/-- A step that starts a search is the execution of a launch. -/
theorem searchOk_of_search_starts {s t : State} (hop : AgentOp s t) (hs : s.searching = false)
    (ht : t.searching = true) : SearchOk t := by
  cases hop with
  | executed i t hpending hexec =>
    obtain ⟨hlegal, job, rfl⟩ := launchedWith_of_search_starts hexec hs ht
    exact launchedWith_searchOk job hlegal
  | finished => simp at ht
  | laneMoved => simp [hs] at ht
  | lanePublished => simp [hs] at ht

/-- A reset leaves no search running (spec/70_reset_and_hazards.md R240). -/
theorem no_reset_of_searching {s t : State} (hstep : step s = .next t) (ht : t.searching = true) :
    s.turns.head? ≠ some .reset := by
  intro hhead
  obtain ⟨rest, hturns⟩ := List.head?_eq_some_iff.mp hhead
  rw [step_of_turns_cons hturns] at hstep
  cases hstep
  simp at ht

/-- Settles O46: while a search runs a step is a lane's turn, or leaves the search alone, or ends it; the step that
starts one is a launch. -/
theorem stepKeepsSearchOk : Obligations.StepKeepsSearchOk := by
  intro s t h hsearch hstep ht
  cases hs : s.searching with
  | true =>
    obtain ⟨hbusy, -⟩ := busy_of_searching h hs
    obtain ⟨turns, choices, hhost | ⟨-, rfl⟩ | ⟨i, hlane⟩⟩ :=
      step_while_searching h hs (no_reset_of_searching hstep ht) hstep
    · exact hostOp_keeps_searchOk (searchOk_outside (hsearch hs) s.script turns choices s.lastRead) hbusy hhost
    · simp at ht
    · exact laneOp_keeps_searchOk (searchOk_outside (hsearch hs) s.script turns choices s.lastRead) hlane
  | false =>
    obtain ⟨turns, choices, hhost | hagent | ⟨-, rfl⟩⟩ := step_ops hstep
    · obtain ⟨-, -, -, -, hsearching⟩ := hostOp_frame hhost
      simp [hsearching, hs] at ht
    · exact searchOk_of_search_starts hagent hs ht
    · simp at ht

end Sys2Proof.Proofs
end

section
/-! The outcome of a search (spec/43_search.md R186 to R189, R194): what the finish step finds in the lanes. -/

namespace Sys2Proof.Proofs

open Sys2Proof.Machine

/-! ### The sizes of the shares -/

/-- How many of the offsets `k, k + c, k + 2 * c, ...` are below `2^32` (R171). -/
def offsetsLeft (c k : Nat) : Nat := (2 ^ 32 - k + (c - 1)) / c

/-- The first of the offsets left is one of them. -/
theorem offsetsLeft_eq_succ {c k : Nat} (hc : 1 ≤ c) (hk : k < 2 ^ 32) :
    offsetsLeft c k = offsetsLeft c (k + c) + 1 := by
  unfold offsetsLeft
  by_cases hlast : 2 ^ 32 ≤ k + c
  · have hzero : (2 ^ 32 - (k + c) + (c - 1)) / c = 0 := Nat.div_eq_of_lt (by omega)
    rw [hzero]
    exact Nat.div_eq_of_lt_le (by omega) (by omega)
  · rw [show 2 ^ 32 - k + (c - 1) = 2 ^ 32 - (k + c) + (c - 1) + c by omega, Nat.add_div_right _ hc]

theorem offsetsLeft_anti {c k k' : Nat} (h : k ≤ k') : offsetsLeft c k' ≤ offsetsLeft c k :=
  Nat.div_le_div_right (by omega)

/-- `N` things dealt out in turn to `c` places are `N` in all. -/
theorem sum_range_add_div {c : Nat} (hc : 1 ≤ c) (N : Nat) : ∑ j ∈ Finset.range c, (N + j) / c = N := by
  induction N with
  | zero => exact Finset.sum_eq_zero fun j hj => by simpa using Or.inr (Finset.mem_range.mp hj)
  | succ N ih =>
    have hshift := (Finset.sum_range_succ' (fun j => (N + j) / c) c).symm.trans (Finset.sum_range_succ _ c)
    rw [ih, Nat.add_zero, Nat.add_div_right N hc] at hshift
    simp only [show ∀ j, N + 1 + j = N + (j + 1) by omega]
    omega

/-- The shares of the lanes make up the `2^32` offsets (R173). -/
theorem sum_range_offsetsLeft {c : Nat} (hc : 1 ≤ c) (hlt : c < 2 ^ 32) :
    ∑ i ∈ Finset.range c, offsetsLeft c i = 2 ^ 32 := by
  rw [← sum_range_add_div hc (2 ^ 32), ← Finset.sum_range_reflect]
  refine Finset.sum_congr rfl fun j hj => ?_
  have hj := Finset.mem_range.mp hj
  rw [offsetsLeft]
  congr 1
  omega

/-! ### Sums over the lanes -/

theorem sum_map_eq_sum_range {ls : List Lane} {f : Lane → Nat} {g : Nat → Nat}
    (h : ∀ i l, ls[i]? = some l → f l = g i) : (ls.map f).sum = ∑ i ∈ Finset.range ls.length, g i := by
  induction ls generalizing g with
  | nil => rfl
  | cons l ls ih =>
    rw [List.map_cons, List.sum_cons, List.length_cons, Finset.sum_range_succ', h 0 l rfl, Nat.add_comm,
      ih fun i x hx => h (i + 1) x hx]

/-- A sum over the lanes of which only the first `c` count. -/
theorem sum_map_eq_of_spare_zero {ls : List Lane} {f : Lane → Nat} {g : Nat → Nat} {c : Nat} (hc : c ≤ ls.length)
    (hpart : ∀ i l, ls[i]? = some l → i < c → f l = g i) (hspare : ∀ i l, ls[i]? = some l → c ≤ i → f l = 0) :
    (ls.map f).sum = ∑ i ∈ Finset.range c, g i := by
  have hall : ∀ i l, ls[i]? = some l → f l = if i < c then g i else 0 := by
    intro i l hl
    split
    · exact hpart i l hl ‹_›
    · exact hspare i l hl (by omega)
  rw [sum_map_eq_sum_range hall, ← Finset.sum_subset (Finset.range_subset_range.mpr hc)]
  · exact Finset.sum_congr rfl fun i hi => if_pos (Finset.mem_range.mp hi)
  · exact fun i _ hi => if_neg (by simpa using hi)

theorem sum_map_le_of_spare_zero {ls : List Lane} {f : Lane → Nat} {g : Nat → Nat} {c : Nat} (hc : c ≤ ls.length)
    (hpart : ∀ i l, ls[i]? = some l → i < c → f l ≤ g i) (hspare : ∀ i l, ls[i]? = some l → c ≤ i → f l = 0) :
    (ls.map f).sum ≤ ∑ i ∈ Finset.range c, g i := by
  rw [sum_map_eq_of_spare_zero (g := fun i => ls[i]?.elim 0 f) hc (fun i l hl _ => by rw [hl]; rfl) hspare]
  refine Finset.sum_le_sum fun i hi => ?_
  have hi := Finset.mem_range.mp hi
  rw [List.getElem?_eq_getElem (by omega)]
  exact hpart i _ (List.getElem?_eq_getElem (by omega)) hi

/-! ### The lanes of a search that is about to end -/

/-- With a result, it is the nonce of a first hit of a share: all earlier offsets of the share were missed (R188). -/
theorem exists_firstHit_of_valid {s : State} (h : SearchOk s) (hvalid : s.status.resultValid = true) :
    ∃ i l, s.lanes[i]? = some l ∧ i < s.laneCount ∧ s.firstHitOfShare l.k.toNat ∧
      s.resultNonce = s.startNonce + BitVec.ofNat 32 l.k.toNat ∧
      l.k.toNat + s.laneCount = i + s.laneCount * l.hashCount.toNat := by
  obtain ⟨i, l, hlane, hi, hfound, hresult, hhit, hcounted⟩ := h.published hvalid
  have hl := h.progress i l hlane hi
  have hk := hl.found_below hfound
  refine ⟨i, l, hlane, hi, ⟨hk, hhit, fun k' hlt hshare => ?_⟩, by rw [hresult, trialNonce_eq], hcounted⟩
  exact hl.missed k' hlt (by omega) (hshare.trans hl.on_share)

/-- A lane in EXH has made a trial of every offset of its share (R181, R182). -/
theorem hashCount_of_exh {s : State} (h : SearchOk s) {i : Nat} {l : Lane} (hlane : s.lanes[i]? = some l)
    (hi : i < s.laneCount) (hexh : l.phase = .exh) : l.hashCount.toNat = offsetsLeft s.laneCount i := by
  have hl := h.progress i l hlane hi
  have hlow := hl.exh_above hexh
  have hhigh := hl.k_bound
  have hc := laneCount_lt s
  obtain hcounted | ⟨hfound, -⟩ := hl.counted
  · have hmul : (l.hashCount.toNat + 1) * s.laneCount = s.laneCount * l.hashCount.toNat + s.laneCount := by ring
    refine (Nat.div_eq_of_lt_le ?_ ?_).symm
    · rw [Nat.mul_comm]
      omega
    · rw [hmul]
      omega
  · simp [hexh] at hfound

/-- Without a result, a lane that has stopped is in EXH (R181). -/
theorem exh_of_stopped {s : State} (h : SearchOk s) (hinvalid : s.status.resultValid = false) {i : Nat} {l : Lane}
    (hlane : s.lanes[i]? = some l) (hi : i < s.laneCount) (hstopped : l.active = false) : l.phase = .exh := by
  have hidle := (h.progress i l hlane hi).not_idle
  have hfound := h.found_published hinvalid l (List.mem_of_getElem? hlane)
  obtain ⟨hrun, hpend⟩ := active_eq_false.mp hstopped
  cases hphase : l.phase with
  | exh => rfl
  | idle => exact absurd hphase hidle
  | found => exact absurd hphase hfound
  | run => exact absurd hphase hrun
  | pend => exact absurd hphase hpend

/-- Each lane that takes part exists (R177). -/
theorem exists_lane {s : State} (h : SearchOk s) {i : Nat} (hi : i < s.laneCount) : ∃ l, s.lanes[i]? = some l :=
  ⟨_, List.getElem?_eq_getElem (Nat.lt_of_lt_of_le hi h.count_le)⟩

/-- With every lane stopped and no result, no offset is a hit: each is in the share of one lane (R173, R189). -/
theorem no_hit_of_exhausted {s : State} (h : SearchOk s) (hinvalid : s.status.resultValid = false)
    (hstopped : ∀ l ∈ s.lanes, l.active = false) {k : Nat} (hk : k < 2 ^ 32) : s.hitAt k = false := by
  have hi : k % s.laneCount < s.laneCount := Nat.mod_lt _ h.count_pos
  obtain ⟨l, hlane⟩ := exists_lane h hi
  have hl := h.progress _ l hlane hi
  have hexh := exh_of_stopped h hinvalid hlane hi (hstopped l (List.mem_of_getElem? hlane))
  exact hl.missed k (Nat.lt_of_lt_of_le hk (hl.exh_above hexh)) hk rfl

/-- With every lane stopped and no result, every offset was tried once (R189). -/
theorem totalHashes_of_exhausted {s : State} (h : SearchOk s) (hinvalid : s.status.resultValid = false)
    (hstopped : ∀ l ∈ s.lanes, l.active = false) : totalHashes s.lanes = BitVec.ofNat 64 (2 ^ 32) := by
  have hsum : (s.lanes.map (fun l => l.hashCount.toNat)).sum = 2 ^ 32 := by
    rw [← sum_range_offsetsLeft h.count_pos (laneCount_lt s)]
    refine sum_map_eq_of_spare_zero h.count_le (fun i l hlane hi => ?_) (fun i l hlane hi => ?_)
    · exact hashCount_of_exh h hlane hi
        (exh_of_stopped h hinvalid hlane hi (hstopped l (List.mem_of_getElem? hlane)))
    · obtain ⟨-, -, hzero⟩ := h.spare_idle i l hlane hi
      rw [hzero]
      rfl
  refine BitVec.eq_of_toNat_eq ?_
  rw [totalHashes_toNat, hsum]
  rfl

/-! ### The finish step -/

/-- A finished search is FOUND exactly with a result (R186). -/
theorem finish_found_iff (s : State) : (finish s).status.state = .found ↔ s.status.resultValid = true := by
  cases hv : s.status.resultValid <;> simp [hv]

theorem finish_exhausted_iff (s : State) : (finish s).status.state = .exhausted ↔ s.status.resultValid = false := by
  cases hv : s.status.resultValid <;> simp [hv]

/-- What the finish step reports of a search holds (R187, R189). -/
theorem finish_outcomeOk {s : State} (h : SearchOk s) (hstopped : ∀ l ∈ s.lanes, l.active = false) :
    OutcomeOk (finish s) where
  found_sound hfound := by
    have hvalid := (finish_found_iff s).mp hfound
    obtain ⟨_, l, -, -, ⟨-, hhit, -⟩, hresult, -⟩ := exists_firstHit_of_valid h hvalid
    refine ⟨hvalid, ?_⟩
    rw [hits_congr (finish_job s), finish_resultNonce, hresult]
    exact hhit
  exhausted_none hexhausted := by
    have hinvalid := (finish_exhausted_iff s).mp hexhausted
    refine ⟨hinvalid, fun n => ?_⟩
    obtain ⟨k, hk, rfl⟩ := exists_offset s.startNonce n
    rw [hits_congr (finish_job s)]
    exact no_hit_of_exhausted h hinvalid hstopped hk
  exhausted_total hexhausted := by
    rw [finish_lanes]
    exact totalHashes_of_exhausted h ((finish_exhausted_iff s).mp hexhausted) hstopped

/-! ### The outcome of every step -/

/-- The outcome speaks of the state, the result cell, the job window and the lanes. -/
theorem outcomeOk_congr {s t : State} (h : OutcomeOk s) (hstate : t.status.state = s.status.state)
    (hvalid : t.status.resultValid = s.status.resultValid) (hresult : t.resultNonce = s.resultNonce)
    (hjob : t.job = s.job) (hlanes : t.lanes = s.lanes) : OutcomeOk t where
  found_sound hfound := by
    rw [hvalid, hits_congr hjob, hresult]
    exact h.found_sound (hstate ▸ hfound)
  exhausted_none hexhausted := by
    simp only [hvalid, hits_congr hjob]
    exact h.exhausted_none (hstate ▸ hexhausted)
  exhausted_total hexhausted := by
    rw [hlanes]
    exact h.exhausted_total (hstate ▸ hexhausted)

/-- In the other states there is nothing to show. -/
theorem outcomeOk_of_no_outcome {s : State} (hfound : s.status.state ≠ .found)
    (hexhausted : s.status.state ≠ .exhausted) : OutcomeOk s :=
  ⟨fun h => absurd h hfound, fun h => absurd h hexhausted, fun h => absurd h hexhausted⟩

/-- The host keeps what an outcome speaks of, until it gives the next command word (spec/20_memory.md R66). -/
theorem hostOp_keeps_outcomeOk {s t : State} (h : OutcomeOk s) (hop : HostOp s t) : OutcomeOk t := by
  cases hop with
  | quiet => exact outcomeOk_congr h rfl rfl rfl rfl rfl
  | dropped => exact outcomeOk_congr h rfl rfl rfl rfl rfl
  | accepted => exact outcomeOk_of_no_outcome nofun nofun
  | refused => exact outcomeOk_of_no_outcome nofun nofun
  | written => exact outcomeOk_congr h rfl rfl rfl rfl rfl

/-- An agent of the block leaves no outcome but by the finish step. -/
theorem agentOp_outcomeOk {s t : State} (h : ControlOk s) (hsearch : s.searching = true → SearchOk s)
    (hop : AgentOp s t) : OutcomeOk t := by
  have of_busy : s.status.state = .busy → t.status.state = s.status.state → OutcomeOk t := fun hbusy hsame =>
    outcomeOk_of_no_outcome (by simp [hsame, hbusy]) (by simp [hsame, hbusy])
  cases hop with
  | executed i t hpending hexec =>
    cases execOp_of_exec hexec with
    | completed => exact outcomeOk_of_no_outcome nofun nofun
    | raised => exact outcomeOk_of_no_outcome nofun nofun
    | launched =>
      obtain ⟨hbusy, -⟩ := busy_of_pending h hpending
      exact of_busy hbusy rfl
  | finished hpending hfinish =>
    obtain ⟨hs, hstopped⟩ := canFinish_eq_true.mp hfinish
    exact finish_outcomeOk (hsearch hs) hstopped
  | laneMoved i l l' hlane hactive =>
    obtain ⟨hbusy, -⟩ := busy_of_searching h (searching_of_active h hlane hactive)
    exact of_busy hbusy rfl
  | lanePublished i l l' n hlane hactive hinvalid =>
    obtain ⟨hbusy, -⟩ := busy_of_searching h (searching_of_active h hlane hactive)
    exact of_busy hbusy rfl

/-- Settles O47, by the operations a step can be. -/
theorem stepKeepsOutcomeOk : Obligations.StepKeepsOutcomeOk := by
  intro s t h hsearch houtcome hstep
  obtain ⟨turns, choices, hhost | hagent | ⟨-, rfl⟩⟩ := step_ops hstep
  · have hs : OutcomeOk { s with turns := turns, choices := choices } :=
      outcomeOk_congr houtcome rfl rfl rfl rfl rfl
    exact hostOp_keeps_outcomeOk hs hhost
  · exact agentOp_outcomeOk (controlOk_outside h s.script turns choices s.lastRead)
      (fun hs => searchOk_outside (hsearch hs) s.script turns choices s.lastRead) hagent
  · exact outcomeOk_of_no_outcome nofun nofun

/-! ### The step that ends a search -/

/-- A search ends by the finish step, if not by a reset (R186). -/
theorem finish_of_search_ends {s t : State} (h : ControlOk s) (hs : s.searching = true)
    (hreset : s.turns.head? ≠ some .reset) (hstep : step s = .next t) (ht : t.searching = false) :
    (∀ l ∈ s.lanes, l.active = false) ∧ ∃ turns choices, t = finish { s with turns := turns, choices := choices } := by
  obtain ⟨turns, choices, hhost | ⟨hfinish, rfl⟩ | ⟨i, hlane⟩⟩ := step_while_searching h hs hreset hstep
  · obtain ⟨-, -, -, -, hsearching⟩ := hostOp_frame hhost
    rw [hsearching] at ht
    simp [hs] at ht
  · obtain ⟨-, hstopped⟩ := canFinish_eq_true.mp hfinish
    exact ⟨hstopped, turns, choices, rfl⟩
  · obtain ⟨lanes, n, v, rfl⟩ := laneOp_frame hlane
    simp [hs] at ht

/-- A step from a running search to a state that is not BUSY ends the search. -/
theorem search_ends_of_not_busy {s t : State} (h : ControlOk s) (hstep : step s = .next t)
    (hstate : t.status.state ≠ .busy) : t.searching = false := by
  obtain ⟨-, hs⟩ := idle_of_not_busy (stepKeepsControlOk s t h hstep) hstate
  exact hs

/-- Settles O55: a search that ends FOUND has a result. -/
theorem reportedNonceIsAFirstHit : Obligations.ReportedNonceIsAFirstHit := by
  intro s t h hsearch hs hreset hstep hfound
  obtain ⟨-, turns, choices, rfl⟩ :=
    finish_of_search_ends h hs hreset hstep (search_ends_of_not_busy h hstep (by simp [hfound]))
  obtain ⟨-, l, -, -, hfirst, hresult, -⟩ := exists_firstHit_of_valid hsearch ((finish_found_iff _).mp hfound)
  exact ⟨l.k.toNat, hfirst, hresult⟩

/-- Settles O56: lane 0 has every offset in its share. -/
theorem oneLaneSearchReportsTheSmallestHit : Obligations.OneLaneSearchReportsTheSmallestHit := by
  intro s t h hsearch hs hone hreset hstep
  have hc : s.laneCount = 1 := hone
  refine ⟨fun hfound => ?_, fun hexhausted => ?_⟩
  · obtain ⟨-, turns, choices, rfl⟩ :=
      finish_of_search_ends h hs hreset hstep (search_ends_of_not_busy h hstep (by simp [hfound]))
    obtain ⟨i, l, hlane, hi, ⟨hk, hhit, hfirst⟩, hresult, hcounted⟩ :=
      exists_firstHit_of_valid hsearch ((finish_found_iff _).mp hfound)
    rw [hc] at hi hcounted hfirst
    obtain rfl : i = 0 := by omega
    exact ⟨l.k.toNat, l, hk, hhit, fun k' hlt => hfirst k' hlt (by omega), hresult, hlane, by omega⟩
  · obtain ⟨hstopped, turns, choices, rfl⟩ :=
      finish_of_search_ends h hs hreset hstep (search_ends_of_not_busy h hstep (by simp [hexhausted]))
    have hinvalid := (finish_exhausted_iff _).mp hexhausted
    have hzero : 0 < s.laneCount := by omega
    obtain ⟨l, hlane⟩ := exists_lane hsearch hzero
    have hexh := exh_of_stopped hsearch hinvalid hlane hzero (hstopped l (List.mem_of_getElem? hlane))
    refine ⟨fun k hk => no_hit_of_exhausted hsearch hinvalid hstopped hk, l, hlane, ?_⟩
    rw [hashCount_of_exh hsearch hlane hzero hexh, hc]
    rfl

/-- Settles O60: a search that ends without a result has tried every offset, and a result is a hit. -/
theorem exhaustedSearchTriedEveryNonce : Obligations.ExhaustedSearchTriedEveryNonce := by
  intro s t h hsearch hs hreset hstep ht
  obtain ⟨hstopped, turns, choices, rfl⟩ := finish_of_search_ends h hs hreset hstep ht
  refine ⟨⟨fun hexhausted k hk => ?_, fun hnone => ?_⟩, fun hexhausted => ?_⟩
  · exact no_hit_of_exhausted hsearch ((finish_exhausted_iff _).mp hexhausted) hstopped hk
  · rw [finish_exhausted_iff, ← Bool.not_eq_true]
    intro hvalid
    obtain ⟨-, l, -, -, ⟨hk, hhit, -⟩, -⟩ := exists_firstHit_of_valid hsearch hvalid
    simp [hnone _ hk] at hhit
  · have hinvalid := (finish_exhausted_iff _).mp hexhausted
    have htotal := totalHashes_of_exhausted hsearch hinvalid hstopped
    refine ⟨fun i l hlane hi => ?_, ?_, ?_⟩
    · have hexh := exh_of_stopped hsearch hinvalid hlane hi (hstopped l (List.mem_of_getElem? hlane))
      exact ⟨hexh, hashCount_of_exh hsearch hlane hi hexh⟩
    · exact (congrArg hiWord htotal).trans (by decide)
    · exact (congrArg loWord htotal).trans (by decide)

/-! ### Hits in terms of the header -/

/-- With the job window of the header a trial hits exactly when the header passes with its nonce (R130, R182). -/
theorem hits_iff_headerPasses {s : State} (hjob : s.jobOfHeader) (n : Word) :
    s.hits n = true ↔ s.headerPasses n := by
  obtain ⟨hdomain, ⟨htail, hmid⟩, hpredicate⟩ := hjob
  rw [State.hits, State.jobTest, predicateTest_of_holdsPredicate hdomain hpredicate, State.jobDigest, htail, hmid]
  rfl

/-- Settles O58: the outcome of the search, read through the job window of its header. -/
theorem hitsAreNoncesThatPassTheHeader : Obligations.HitsAreNoncesThatPassTheHeader := by
  refine ⟨fun s n hjob => hits_iff_headerPasses hjob n, ?_⟩
  intro s t h hsearch hjob hs hreset hstep
  have outcome : t.status.state ≠ .busy → OutcomeOk t ∧ t.jobOfHeader := fun hstate => by
    obtain ⟨hstopped, turns, choices, rfl⟩ :=
      finish_of_search_ends h hs hreset hstep (search_ends_of_not_busy h hstep hstate)
    exact ⟨finish_outcomeOk (searchOk_outside hsearch s.script turns choices s.lastRead) hstopped,
      jobOfHeader_congr hjob rfl rfl⟩
  refine ⟨fun hfound => ?_, fun hexhausted n => ?_⟩
  · obtain ⟨houtcome, hjob'⟩ := outcome (by simp [hfound])
    obtain ⟨-, hhit⟩ := houtcome.found_sound hfound
    exact (hits_iff_headerPasses hjob' _).mp hhit
  · obtain ⟨houtcome, hjob'⟩ := outcome (by simp [hexhausted])
    obtain ⟨-, hnone⟩ := houtcome.exhausted_none hexhausted
    rw [← hits_iff_headerPasses hjob', hnone n]
    exact Bool.false_ne_true

end Sys2Proof.Proofs
end

section
/-! Every search ends (spec/43_search.md R190, spec/70_reset_and_hazards.md R256): each enabled turn of the controller
or of a lane lowers the number of steps that are left. -/

namespace Sys2Proof.Proofs

open Sys2Proof.Machine

/-! ### The steps that are left -/

/-- The steps a lane can still take: two for each offset left of its share, and one that stops it (R181, R182). -/
def laneWork (c : Nat) (l : Lane) : Nat :=
  match l.phase with
  | .run => 2 * offsetsLeft c l.k.toNat + 1
  | .pend => 2 * offsetsLeft c l.k.toNat
  | .idle => 0
  | .found => 0
  | .exh => 0

/-- The steps that the lanes of a search can still take. -/
def lanesWork (s : State) : Nat := (s.lanes.map (laneWork s.laneCount)).sum

/-- A bound on the steps that end what makes the block BUSY: those of a whole search while a command is pending, those
of the lanes and the finish step while a search runs (R190). -/
def stepsLeft (s : State) : Nat :=
  if s.pending.isSome = true then 2 ^ 33 + 34 else if s.searching = true then lanesWork s + 1 else 0

theorem stepsLeft_of_pending {s : State} {i : Instr} (h : s.pending = some i) : stepsLeft s = 2 ^ 33 + 34 := by
  simp [stepsLeft, h]

theorem stepsLeft_of_searching {s : State} (hpending : s.pending = none) (hs : s.searching = true) :
    stepsLeft s = lanesWork s + 1 := by
  simp [stepsLeft, hpending, hs]

theorem stepsLeft_of_done {s : State} (hpending : s.pending = none) (hs : s.searching = false) : stepsLeft s = 0 := by
  simp [stepsLeft, hpending, hs]

/-- A lane that is no longer at its start has no more left than at its start. -/
theorem laneWork_le {s : State} {i : Nat} {l : Lane} (hl : LaneProgress s i l) :
    laneWork s.laneCount l ≤ 2 * offsetsLeft s.laneCount i + 1 := by
  have hle : i ≤ l.k.toNat := by
    rw [← hl.on_share]
    exact Nat.mod_le _ _
  have hleft := offsetsLeft_anti (c := s.laneCount) hle
  unfold laneWork
  cases l.phase <;> simp only <;> omega

/-- The lanes have two steps for each of the `2^32` offsets, and one each to stop (R190). -/
theorem lanesWork_le {s : State} (h : SearchOk s) (hle : s.lanes.length ≤ 32) : lanesWork s ≤ 2 ^ 33 + 32 := by
  have hsum := sum_map_le_of_spare_zero (f := laneWork s.laneCount) h.count_le
    (fun i l hlane hi => laneWork_le (h.progress i l hlane hi)) (fun i l hlane hi => by
      obtain ⟨hidle, -⟩ := h.spare_idle i l hlane hi
      rw [laneWork, hidle])
  rw [Finset.sum_add_distrib, ← Finset.mul_sum, sum_range_offsetsLeft h.count_pos (laneCount_lt s), Finset.sum_const,
    Finset.card_range] at hsum
  have hcount : s.laneCount ≤ s.lanes.length := h.count_le
  simp only [smul_eq_mul, mul_one] at hsum
  unfold lanesWork
  omega

/-- No legal state has more steps left than a command that was just accepted. -/
theorem stepsLeft_le {s : State} (h : ControlOk s) (hsearch : s.searching = true → SearchOk s) :
    stepsLeft s ≤ 2 ^ 33 + 34 := by
  cases hpending : s.pending with
  | some i => exact (stepsLeft_of_pending hpending).le
  | none =>
    cases hs : s.searching with
    | true =>
      have hwork := lanesWork_le (hsearch hs) h.lanes_le
      rw [stepsLeft_of_searching hpending hs]
      omega
    | false =>
      rw [stepsLeft_of_done hpending hs]
      omega

/-! ### An enabled turn lowers them -/

theorem sum_map_set_lt {ls : List Lane} {f : Lane → Nat} {i : Nat} {l l' : Lane} (hl : ls[i]? = some l)
    (hlt : f l' < f l) : ((ls.set i l').map f).sum < (ls.map f).sum := by
  induction ls generalizing i with
  | nil => simp at hl
  | cons x xs ih =>
    cases i with
    | zero =>
      cases hl
      simpa using hlt
    | succ i => simpa using ih hl

/-- A lane has an enabled step in RUN and in PEND (R179). -/
theorem turnEnabled_lane_iff {s : State} {i : Nat} :
    turnEnabled s (.lane i) = true ↔ ∃ l, s.lanes[i]? = some l ∧ l.active = true := by
  cases hlane : s.lanes[i]? <;> simp [turnEnabled, hlane]

/-- A turn of an active lane uses up one of its steps. -/
theorem laneOp_lowers_work {s t : State} {i : Nat} (h : SearchOk s) (hop : LaneOp s i t)
    (henabled : turnEnabled s (.lane i) = true) : lanesWork t < lanesWork s := by
  have hc := h.count_pos
  have pend_left : ∀ l, s.lanes[i]? = some l → l.phase = .pend →
      offsetsLeft s.laneCount l.k.toNat = offsetsLeft s.laneCount (l.k.toNat + s.laneCount) + 1 ∧
        l.k.toNat < 2 ^ 32 := fun l hlane hpend => by
    have hi := lt_laneCount_of_active h hlane (active_eq_true.mpr (.inr hpend))
    have hk := (h.progress i l hlane hi).pend_below hpend
    exact ⟨offsetsLeft_eq_succ hc hk, hk⟩
  cases hop with
  | stays hstopped =>
    obtain ⟨l, hlane, hactive⟩ := turnEnabled_lane_iff.mp henabled
    simp [hstopped l hlane] at hactive
  | begins l hlane hrun =>
    refine sum_map_set_lt hlane ?_
    obtain ⟨-, hp⟩ | ⟨-, -, hp⟩ | ⟨-, -, hp⟩ := beginPhase_cases s.status.resultValid l.k <;>
      simp [laneWork, begunLane, hp, hrun]
  | misses l hlane hpend hmiss =>
    obtain ⟨hleft, hk⟩ := pend_left l hlane hpend
    have hwork : laneWork s.laneCount (missedLane s l) = 2 * offsetsLeft s.laneCount (l.k.toNat + s.laneCount) + 1 := by
      rw [← toNat_missedLane_k_of_lt s hk]
      rfl
    refine sum_map_set_lt hlane ?_
    show laneWork s.laneCount (missedLane s l) < laneWork s.laneCount l
    rw [hwork, laneWork, hpend]
    simp only
    omega
  | hits l hlane hpend hhit =>
    obtain ⟨hleft, -⟩ := pend_left l hlane hpend
    rw [publish_eq]
    refine sum_map_set_lt hlane ?_
    show laneWork s.laneCount (hitLane s l) < laneWork s.laneCount l
    rw [laneWork, laneWork, hpend]
    simp only [hitLane]
    omega

/-- Every command's execution answers a next state. -/
theorem exists_exec (i : Instr) (s : State) : ∃ t, exec i s = .next t := by
  obtain ⟨t, hexec, -⟩ := noCommandReadsTheHeaderNonce i s 0
  exact ⟨t, hexec⟩

/-- The execution of a command leaves less than was left for a whole search. -/
theorem exec_lowers_stepsLeft {i : Instr} {s t : State} (h : ControlOk s) (hpending : s.pending = some i)
    (hexec : exec i s = .next t) : stepsLeft t < stepsLeft s ∧ t.script = s.script ∧ t.turns = s.turns := by
  obtain ⟨-, hs, -⟩ := busy_of_pending h hpending
  have done_lt (u : State) (hu : u.pending = none) (hsu : u.searching = false) : stepsLeft u < 2 ^ 33 + 34 := by
    rw [stepsLeft_of_done hu hsu]
    omega
  rw [stepsLeft_of_pending hpending]
  cases execOp_of_exec hexec with
  | completed => exact ⟨done_lt _ rfl hs, rfl, rfl⟩
  | raised => exact ⟨done_lt _ rfl hs, rfl, rfl⟩
  | launched job =>
    obtain ⟨hlegal, -⟩ := launchedWith_of_search_starts hexec hs rfl
    have hlength : (launchedWith job s).lanes.length ≤ 32 := by
      rw [launchedWith, List.length_mapIdx]
      exact h.lanes_le
    have hwork := lanesWork_le (launchedWith_searchOk job hlegal) hlength
    have hleft : stepsLeft (launchedWith job s) = lanesWork (launchedWith job s) + 1 := stepsLeft_of_searching rfl rfl
    refine ⟨?_, rfl, rfl⟩
    show stepsLeft (launchedWith job s) < _
    omega

/-- An enabled turn of the controller or of a lane brings the end nearer (R190). -/
theorem enabled_turn_lowers_stepsLeft {s : State} {a : Turn} (h : ControlOk s)
    (hsearch : s.searching = true → SearchOk s) (henabled : turnEnabled s a = true) (hhost : a ≠ .host) :
    ∃ t, takeTurn a s = .next t ∧ stepsLeft t < stepsLeft s ∧ t.script = s.script ∧ t.turns = s.turns := by
  cases a with
  | host => exact absurd rfl hhost
  | reset => simp [turnEnabled] at henabled
  | controller =>
    obtain ⟨i, hpending, hturn⟩ | ⟨hpending, hfinish, hturn⟩ | ⟨hpending, hfinish, -⟩ := controllerStep_cases s
    · obtain ⟨t, hexec⟩ := exists_exec i s
      exact ⟨t, hturn.trans hexec, exec_lowers_stepsLeft h hpending hexec⟩
    · obtain ⟨hs, -⟩ := canFinish_eq_true.mp hfinish
      refine ⟨finish s, hturn, ?_, rfl, rfl⟩
      rw [stepsLeft_of_searching hpending hs, stepsLeft_of_done (s := finish s) hpending rfl]
      omega
    · simp [turnEnabled, hpending, hfinish] at henabled
  | lane i =>
    obtain ⟨l, hlane, hactive⟩ := turnEnabled_lane_iff.mp henabled
    have hs := searching_of_active h hlane hactive
    obtain ⟨-, hpending, -⟩ := busy_of_searching h hs
    have hop := laneOp_laneStep s i
    have hwork := laneOp_lowers_work (hsearch hs) hop henabled
    obtain ⟨lanes, n, v, hframe⟩ := laneOp_frame hop
    refine ⟨laneStep i s, rfl, ?_, by rw [hframe], by rw [hframe]⟩
    rw [stepsLeft_of_searching hpending hs,
      stepsLeft_of_searching (by rw [hframe]; exact hpending) (by rw [hframe]; exact hs)]
    omega

/-- While BUSY the controller or a lane has an enabled step (R190). -/
theorem exists_enabled_of_busy {s : State} (h : ControlOk s) (hbusy : s.status.state = .busy) :
    ∃ a, a ≠ .host ∧ turnEnabled s a = true := by
  by_cases hcontroller : turnEnabled s .controller = true
  · exact ⟨.controller, nofun, hcontroller⟩
  · have hidle : s.pending = none ∧ s.canFinish = false := by simpa [turnEnabled] using hcontroller
    obtain ⟨hpending, hfinish⟩ := hidle
    have hs : s.searching = true := by simpa [hpending] using h.busy_iff.mp hbusy
    obtain ⟨l, hmem, hactive⟩ : ∃ l ∈ s.lanes, l.active = true := by simpa [State.canFinish, hs] using hfinish
    obtain ⟨i, hlane⟩ := List.mem_iff_getElem?.mp hmem
    exact ⟨.lane i, nofun, turnEnabled_lane_iff.mpr ⟨l, hlane, hactive⟩⟩

/-! ### The bound with free turns -/

/-- With a silent host and no turn fixed in advance, the step of a BUSY block is an enabled turn of the controller or of
a lane. -/
theorem free_step_lowers_stepsLeft {s : State} (h : ControlOk s) (hsearch : s.searching = true → SearchOk s)
    (hscript : s.script = []) (hturns : s.turns = []) (hbusy : s.status.state = .busy) :
    ∃ t, step s = .next t ∧ stepsLeft t < stepsLeft s ∧ t.script = [] ∧ t.turns = [] := by
  obtain ⟨b, -, hb⟩ := exists_enabled_of_busy h hbusy
  cases hfree : s.freeTurn with
  | none => simp [freeTurn_none hfree b] at hb
  | some a =>
    have henabled := freeTurn_enabled hfree
    have hhost : a ≠ .host := by
      rintro rfl
      simp [turnEnabled, hscript] at henabled
    have hstep : step s = takeTurn a { s with choices := s.choices + 1 } := by
      simp only [step, nextStep, hturns, hfree]
    obtain ⟨t, hturn, hlower, hscript', hturns'⟩ :=
      enabled_turn_lowers_stepsLeft (s := { s with choices := s.choices + 1 }) (a := a)
        (controlOk_outside h s.script s.turns _ s.lastRead)
        (fun hs => searchOk_outside (hsearch hs) s.script s.turns _ s.lastRead)
        (by cases a <;> exact henabled) hhost
    exact ⟨t, hstep.trans hturn, hlower, hscript'.trans hscript, hturns'.trans hturns⟩

/-- Free turns end BUSY within the steps that are left. -/
theorem run_reaches_not_busy {r : Nat} {s : State} (h : ControlOk s) (hsearch : s.searching = true → SearchOk s)
    (hscript : s.script = []) (hturns : s.turns = []) (hleft : stepsLeft s ≤ r) :
    ∃ n t, n ≤ r ∧ Host.Core.run Sys2Proof.core n s = .next t ∧ t.status.state ≠ .busy := by
  induction r generalizing s with
  | zero =>
    refine ⟨0, s, le_rfl, rfl, fun hbusy => ?_⟩
    obtain ⟨_, -, hlower, -⟩ := free_step_lowers_stepsLeft h hsearch hscript hturns hbusy
    omega
  | succ r ih =>
    by_cases hbusy : s.status.state = .busy
    · obtain ⟨t, hstep, hlower, hscript', hturns'⟩ := free_step_lowers_stepsLeft h hsearch hscript hturns hbusy
      obtain ⟨n, u, hn, hrun, hu⟩ :=
        ih (stepKeepsControlOk s t h hstep) (stepKeepsSearchOk s t h hsearch hstep) hscript' hturns' (by omega)
      exact ⟨n + 1, u, by omega, (run_succ_of_step (M := Sys2Proof.core) n hstep).trans hrun, hu⟩
    · exact ⟨0, s, Nat.zero_le _, rfl, hbusy⟩

/-- Settles O52: no more steps are left than the bound. -/
theorem searchEndsWithinItsStepBound : Obligations.SearchEndsWithinItsStepBound := fun _ h hsearch hscript hturns =>
  run_reaches_not_busy h hsearch hscript hturns (stepsLeft_le h hsearch)

/-! ### Weak fairness -/

/-- The state of a run with a host that only waits. -/
structure WaitingRun (s : State) : Prop where
  control : ControlOk s
  search : s.searching = true → SearchOk s
  waits : ∀ x ∈ s.script, x = .wait

/-- The two states differ at most in the model's own fields. -/
def SameBlock (s t : State) : Prop :=
  ∃ script turns lastRead, t = { s with script := script, turns := turns, lastRead := lastRead }

theorem sameBlock_trans {s t u : State} (hst : SameBlock s t) (htu : SameBlock t u) : SameBlock s u := by
  obtain ⟨_, _, _, rfl⟩ := hst
  obtain ⟨_, _, _, rfl⟩ := htu
  exact ⟨_, _, _, rfl⟩

/-- Whether the controller or a lane has an enabled step is a matter of the block alone. -/
theorem turnEnabled_of_sameBlock {s t : State} {a : Turn} (h : SameBlock s t) (ha : a ≠ .host) :
    turnEnabled t a = turnEnabled s a := by
  obtain ⟨_, _, _, rfl⟩ := h
  cases a with
  | host => exact absurd rfl ha
  | controller => rfl
  | lane i => rfl
  | reset => rfl

theorem stepsLeft_of_sameBlock {s t : State} (h : SameBlock s t) : stepsLeft t = stepsLeft s := by
  obtain ⟨_, _, _, rfl⟩ := h
  rfl

/-- The turn of a host that only waits changes nothing of the block (spec/30_encoding.md R87). -/
theorem hostStep_of_waits {s : State} (hwaits : ∀ x ∈ s.script, x = .wait) :
    ∃ script lastRead, hostStep s = .next { s with script := script, lastRead := lastRead } ∧
      ∀ x ∈ script, x = .wait := by
  cases hscript : s.script with
  | nil =>
    have hstep : hostStep s = .next s := by simp only [hostStep, hscript]
    exact ⟨s.script, s.lastRead, hstep, hwaits⟩
  | cons x script =>
    obtain rfl : x = .wait := hwaits x (by simp [hscript])
    cases hbusy : s.busy with
    | true => exact ⟨s.script, _, hostStep_wait_of_busy hscript hbusy, hwaits⟩
    | false => exact ⟨script, _, hostStep_wait_of_idle hscript hbusy, fun x hx => hwaits x (by simp [hscript, hx])⟩

/-- A turn of the controller or of a lane that has no enabled step changes nothing (log 8). -/
theorem takeTurn_of_not_enabled {s : State} {a : Turn} (hhost : a ≠ .host) (hreset : a ≠ .reset)
    (henabled : turnEnabled s a = false) : takeTurn a s = .next s := by
  cases a with
  | host => exact absurd rfl hhost
  | reset => exact absurd rfl hreset
  | controller =>
    have hidle : s.pending = none ∧ s.canFinish = false := by simpa [turnEnabled] using henabled
    obtain ⟨hpending, hfinish⟩ := hidle
    simp [takeTurn, controllerStep, hpending, hfinish]
  | lane i =>
    refine congrArg Host.Outcome.next (laneStep_of_stopped fun l hlane => ?_)
    simpa only [turnEnabled, hlane] using henabled

/-- A turn of a schedule without a reset lowers the steps that are left where its agent has an enabled step, and
otherwise leaves the block as it is. -/
theorem scheduled_step {s : State} {a : Turn} (h : WaitingRun s) (hreset : a ≠ .reset) :
    ∃ t, step { s with turns := [a] } = .next t ∧ WaitingRun t ∧
      (SameBlock s t ∨ stepsLeft t < stepsLeft s) ∧
      (a ≠ .host → turnEnabled s a = true → stepsLeft t < stepsLeft s) := by
  have hcontrol (turns : List Turn) : ControlOk { s with turns := turns } :=
    controlOk_outside h.control s.script turns s.choices s.lastRead
  have hsearch (turns : List Turn) : s.searching = true → SearchOk { s with turns := turns } := fun hs =>
    searchOk_outside (h.search hs) s.script turns s.choices s.lastRead
  have hstep : step { s with turns := [a] } = takeTurn a { s with turns := [] } := step_of_turns_cons rfl
  have waitingRun (t : State) (hturn : takeTurn a { s with turns := [] } = .next t)
      (hwaits : ∀ x ∈ t.script, x = .wait) : WaitingRun t :=
    ⟨stepKeepsControlOk _ t (hcontrol [a]) (hstep.trans hturn),
      stepKeepsSearchOk _ t (hcontrol [a]) (hsearch [a]) (hstep.trans hturn), hwaits⟩
  by_cases hhost : a = .host
  · subst hhost
    obtain ⟨script, lastRead, hturn, hwaits⟩ := hostStep_of_waits (s := { s with turns := [] }) h.waits
    exact ⟨_, hstep.trans hturn, waitingRun _ hturn hwaits, .inl ⟨script, [], lastRead, rfl⟩, fun hne => absurd rfl hne⟩
  have hsame : turnEnabled { s with turns := [] } a = turnEnabled s a :=
    turnEnabled_of_sameBlock ⟨s.script, [], s.lastRead, rfl⟩ hhost
  cases henabled : turnEnabled s a with
  | true =>
    obtain ⟨t, hturn, hlower, hscript, -⟩ :=
      enabled_turn_lowers_stepsLeft (hcontrol []) (hsearch []) (hsame.trans henabled) hhost
    exact ⟨t, hstep.trans hturn, waitingRun t hturn (by rw [hscript]; exact h.waits), .inr hlower, fun _ _ => hlower⟩
  | false =>
    have hturn := takeTurn_of_not_enabled hhost hreset (hsame.trans henabled)
    exact ⟨_, hstep.trans hturn, waitingRun _ hturn h.waits, .inl ⟨s.script, [], s.lastRead, rfl⟩, nofun⟩

/-- A run goes on with the step of its next turn. -/
theorem runUnder_succ {σ : Nat → Turn} {s u t : State} {n : Nat} (hrun : runUnder σ s n = some u)
    (hstep : step { u with turns := [σ n] } = .next t) : runUnder σ s (n + 1) = some t := by
  simp only [runUnder, hrun, hstep]

/-- A run without a reset under a host that only waits never stops. -/
theorem exists_runUnder {σ : Nat → Turn} {s : State} (h : WaitingRun s) (hreset : ∀ n, σ n ≠ .reset) (n : Nat) :
    ∃ u, runUnder σ s n = some u ∧ WaitingRun u := by
  induction n with
  | zero => exact ⟨s, rfl, h⟩
  | succ n ih =>
    obtain ⟨u, hrun, hu⟩ := ih
    obtain ⟨t, hstep, ht, -⟩ := scheduled_step hu (hreset n)
    exact ⟨t, runUnder_succ hrun hstep, ht⟩

/-- Under a weakly fair schedule a BUSY block comes to a state with fewer steps left: an agent that has an enabled step
keeps it until then, so fairness gives it a turn. -/
theorem stepsLeft_falls {σ : Nat → Turn} {s u : State} (h : WaitingRun s) (hreset : ∀ n, σ n ≠ .reset)
    (hfair : WeaklyFair σ s) {n : Nat} (hrun : runUnder σ s n = some u) (hbusy : u.status.state = .busy) :
    ∃ m v, runUnder σ s m = some v ∧ stepsLeft v < stepsLeft u := by
  by_contra hnever
  have hleft : ∀ m v, runUnder σ s m = some v → ¬ stepsLeft v < stepsLeft u := fun m v hm hlower =>
    hnever ⟨m, v, hm, hlower⟩
  have hsame : ∀ m, n ≤ m → ∀ v, runUnder σ s m = some v → SameBlock u v := by
    intro m hm
    induction m, hm using Nat.le_induction with
    | base =>
      intro v hv
      cases hrun.symm.trans hv
      exact ⟨_, _, _, rfl⟩
    | succ m hm ih =>
      intro v hv
      obtain ⟨w, hw, hwait⟩ := exists_runUnder h hreset m
      obtain ⟨t, hstep, -, hsame | hlower, -⟩ := scheduled_step hwait (hreset m)
      all_goals cases (runUnder_succ hw hstep).symm.trans hv
      · exact sameBlock_trans (ih w hw) hsame
      · exact absurd (stepsLeft_of_sameBlock (ih w hw) ▸ hlower) (hleft _ _ hv)
  obtain ⟨u', hu', hu⟩ := exists_runUnder h hreset n
  cases hrun.symm.trans hu'
  obtain ⟨a, hhost, henabled⟩ := exists_enabled_of_busy hu.control hbusy
  have hstays : ∀ m v, n ≤ m → runUnder σ s m = some v → turnEnabled v a = true := fun m v hm hv =>
    (turnEnabled_of_sameBlock (hsame m hm v hv) hhost).trans henabled
  have ha : a ≠ .reset := by
    rintro rfl
    cases henabled
  obtain ⟨m, hm, rfl⟩ := hfair a hhost ha n hstays
  obtain ⟨w, hw, hwait⟩ := exists_runUnder h hreset m
  obtain ⟨t, hstep, -, -, hlower⟩ := scheduled_step hwait (hreset m)
  have hlt := hlower hhost (hstays m w hm hw)
  rw [stepsLeft_of_sameBlock (hsame m hm w hw)] at hlt
  exact hleft _ _ (runUnder_succ hw hstep) hlt

/-- Settles O53, by induction on the steps that are left. -/
theorem searchEndsUnderWeakFairness : Obligations.SearchEndsUnderWeakFairness := by
  intro s σ hcontrol hsearch hwaits hreset hfair
  have h : WaitingRun s := ⟨hcontrol, hsearch, hwaits⟩
  have ends : ∀ r n u, runUnder σ s n = some u → stepsLeft u = r →
      ∃ n t, runUnder σ s n = some t ∧ t.status.state ≠ .busy := by
    intro r
    induction r using Nat.strong_induction_on with
    | h r ih =>
      intro n u hrun hleft
      by_cases hbusy : u.status.state = .busy
      · obtain ⟨m, v, hv, hlower⟩ := stepsLeft_falls h hreset hfair hrun hbusy
        exact ih _ (hleft ▸ hlower) m v hv rfl
      · exact ⟨n, u, hrun, hbusy⟩
  exact ends _ 0 s rfl rfl

end Sys2Proof.Proofs
end

section
/-! Turns of lanes fixed in advance (spec/43_search.md R176, R183, R195): turns of lanes one after the other, and passes
over the lanes. -/

namespace Sys2Proof.Proofs

open Sys2Proof.Machine

/-! ### Turns of lanes one after the other -/

/-- The turns of the lanes `is`, one after the other. -/
def laneTurns (is : List Nat) (s : State) : State := is.foldl (fun u i => laneStep i u) s

theorem laneTurns_append (is js : List Nat) (s : State) : laneTurns (is ++ js) s = laneTurns js (laneTurns is s) :=
  List.foldl_append

theorem sameOperands_trans {s t u : State} (hst : SameOperands s t) (htu : SameOperands t u) : SameOperands s u :=
  ⟨htu.start_eq.trans hst.start_eq, htu.count_eq.trans hst.count_eq, htu.job_eq.trans hst.job_eq⟩

/-- A lane's turn reads the operands and writes none (R176). -/
theorem laneStep_sameOperands (i : Nat) (s : State) : SameOperands s (laneStep i s) := by
  obtain ⟨lanes, n, v, hframe⟩ := laneOp_frame (laneOp_laneStep s i)
  rw [hframe]
  exact ⟨rfl, rfl, rfl⟩

/-- The turns of lanes change the lanes and the result cell at most. -/
theorem laneTurns_frame (is : List Nat) (s : State) :
    ∃ lanes n v, laneTurns is s =
      { s with lanes := lanes, resultNonce := n, status := { s.status with resultValid := v } } := by
  induction is generalizing s with
  | nil => exact ⟨_, _, _, rfl⟩
  | cons i is ih =>
    obtain ⟨_, _, _, hframe⟩ := laneOp_frame (laneOp_laneStep s i)
    obtain ⟨lanes, n, v, hrest⟩ := ih (laneStep i s)
    refine ⟨lanes, n, v, hrest.trans ?_⟩
    rw [hframe]

/-- A result stays as it is through a lane's turn (R183). -/
theorem laneOp_keeps_result {s t : State} {i : Nat} (hop : LaneOp s i t) (hvalid : s.status.resultValid = true) :
    t.status.resultValid = true ∧ t.resultNonce = s.resultNonce := by
  cases hop with
  | stays => exact ⟨hvalid, rfl⟩
  | begins => exact ⟨hvalid, rfl⟩
  | misses => exact ⟨hvalid, rfl⟩
  | hits l =>
    rw [publish_eq]
    exact ⟨rfl, if_pos hvalid⟩

/-- A turn whose trial does not hit publishes nothing (R182). -/
theorem laneOp_keeps_valid {s t : State} {i : Nat} (hop : LaneOp s i t)
    (hmiss : ∀ l, s.lanes[i]? = some l → l.phase = .pend → s.hitAt l.k.toNat = false) :
    t.status.resultValid = s.status.resultValid := by
  cases hop with
  | stays => rfl
  | begins => rfl
  | misses => rfl
  | hits l hlane hpend hhit =>
    rw [hmiss l hlane hpend] at hhit
    cases hhit

theorem laneTurns_keeps_result (is : List Nat) {s : State} (hvalid : s.status.resultValid = true) :
    (laneTurns is s).status.resultValid = true ∧ (laneTurns is s).resultNonce = s.resultNonce := by
  induction is generalizing s with
  | nil => exact ⟨hvalid, rfl⟩
  | cons i is ih =>
    obtain ⟨hv, hn⟩ := laneOp_keeps_result (laneOp_laneStep s i) hvalid
    obtain ⟨hv', hn'⟩ := ih hv
    exact ⟨hv', hn'.trans hn⟩

/-- A lane's turn does not read the turns that are still to come. -/
theorem laneStep_withTurns (i : Nat) (s : State) (turns : List Turn) :
    laneStep i { s with turns := turns } = { laneStep i s with turns := turns } := by
  cases hlane : s.lanes[i]? with
  | none => simp only [laneStep, hlane]
  | some l =>
    cases hphase : l.phase with
    | run =>
      rw [laneStep_of_run hlane hphase, laneStep_of_run (s := { s with turns := turns }) hlane hphase]
      rfl
    | pend =>
      cases htrial : s.hitAt l.k.toNat with
      | true =>
        rw [laneStep_of_hit hlane hphase htrial, laneStep_of_hit (s := { s with turns := turns }) hlane hphase htrial,
          publish_eq, publish_eq]
        rfl
      | false =>
        rw [laneStep_of_miss hlane hphase htrial, laneStep_of_miss (s := { s with turns := turns }) hlane hphase htrial]
        rfl
    | idle => simp only [laneStep, hlane, hphase]
    | found => simp only [laneStep, hlane, hphase]
    | exh => simp only [laneStep, hlane, hphase]

/-- A run of the machine goes on from the state its first step leaves. -/
theorem run_core_succ {s t : State} (n : Nat) (h : step s = .next t) :
    Host.Core.run Sys2Proof.core (n + 1) s = Host.Core.run Sys2Proof.core n t :=
  run_succ_of_step (M := Sys2Proof.core) n h

/-- A run whose next turns are those of the lanes `is` goes on from the state these leave. -/
theorem run_laneTurns (is : List Nat) (rest : List Turn) (n : Nat) (s : State) :
    Host.Core.run Sys2Proof.core (is.length + n) { s with turns := is.map .lane ++ rest } =
      Host.Core.run Sys2Proof.core n { laneTurns is s with turns := rest } := by
  induction is generalizing s with
  | nil => rw [List.length_nil, Nat.zero_add]; rfl
  | cons i is ih =>
    have hstep : step { s with turns := (i :: is).map .lane ++ rest } =
        .next { laneStep i s with turns := is.map .lane ++ rest } := by
      rw [← laneStep_withTurns i s]
      exact step_of_turns_cons (s := { s with turns := (i :: is).map .lane ++ rest }) rfl
    rw [List.length_cons, Nat.add_right_comm]
    exact (run_core_succ (is.length + n) hstep).trans (ih (laneStep i s))

/-- A search whose lanes have stopped with a result ends FOUND by the controller's turn (R186). -/
theorem run_lanes_then_finish {s : State} {is : List Nat} (hpending : s.pending = none) (hs : s.searching = true)
    (hvalid : (laneTurns is s).status.resultValid = true) (hstopped : ∀ l ∈ (laneTurns is s).lanes, l.active = false) :
    ∃ u, Host.Core.run Sys2Proof.core (is.map Turn.lane ++ [Turn.controller]).length
        { s with turns := is.map .lane ++ [.controller] } = .next u ∧
      u.status.state = .found ∧ u.resultNonce = (laneTurns is s).resultNonce := by
  obtain ⟨lanes, n, v, hframe⟩ := laneTurns_frame is s
  have hpending' : (laneTurns is s).pending = none := by rw [hframe]; exact hpending
  have hs' : (laneTurns is s).searching = true := by rw [hframe]; exact hs
  have hfinish : (laneTurns is s).canFinish = true := canFinish_eq_true.mpr ⟨hs', hstopped⟩
  have hstep : step { laneTurns is s with turns := [.controller] } =
      .next (finish { laneTurns is s with turns := [] }) := by
    rw [step_of_turns_cons rfl]
    simp only [takeTurn, controllerStep, hpending']
    exact congrArg Host.Outcome.next (if_pos hfinish)
  refine ⟨finish { laneTurns is s with turns := [] }, ?_, (finish_found_iff _).mpr hvalid, rfl⟩
  rw [List.length_append, List.length_map, List.length_singleton, run_laneTurns]
  exact (run_one (M := Sys2Proof.core) _).trans hstep

/-! ### A pass over the lanes -/

/-- One turn of each of the lanes 0 to `n - 1`, in increasing order (R195). -/
def pass (n : Nat) (s : State) : State := laneTurns (List.range n) s

theorem pass_succ (n : Nat) (s : State) : pass (n + 1) s = laneStep n (pass n s) := by
  rw [pass, List.range_succ, laneTurns_append]
  rfl

theorem pass_sameOperands (n : Nat) (s : State) : SameOperands s (pass n s) := by
  obtain ⟨_, _, _, hframe⟩ := laneTurns_frame (List.range n) s
  rw [pass, hframe]
  exact ⟨rfl, rfl, rfl⟩

theorem pass_length (n : Nat) (s : State) : (pass n s).lanes.length = s.lanes.length := by
  induction n with
  | zero => rfl
  | succ n ih =>
    obtain ⟨hlength, -⟩ := laneOp_other (laneOp_laneStep (pass n s) n)
    rw [pass_succ, hlength, ih]

/-- A lane that the pass has not come to is as it was (R176). -/
theorem pass_lane_of_le {n j : Nat} (s : State) (hj : n ≤ j) : (pass n s).lanes[j]? = s.lanes[j]? := by
  induction n with
  | zero => rfl
  | succ n ih =>
    obtain ⟨-, hother⟩ := laneOp_other (laneOp_laneStep (pass n s) n)
    rw [pass_succ, hother j (by omega), ih (by omega)]

/-- A lane that the pass has gone by is as its own turn left it (R176). -/
theorem pass_lane_of_lt {n j : Nat} (s : State) (hj : j < n) :
    (pass n s).lanes[j]? = (laneStep j (pass j s)).lanes[j]? := by
  induction n, hj using Nat.le_induction with
  | base => rw [pass_succ]
  | succ n hn ih =>
    obtain ⟨-, hother⟩ := laneOp_other (laneOp_laneStep (pass n s) n)
    rw [pass_succ, hother j (by omega), ih]

theorem setLane_lane_self {s : State} {j : Nat} {l : Lane} (hlane : s.lanes[j]? = some l) (l' : Lane) :
    (s.setLane j l').lanes[j]? = some l' := by
  obtain ⟨hj, -⟩ := List.getElem?_eq_some_iff.mp hlane
  exact List.getElem?_set_self hj

section

variable {s : State} {n j : Nat} {l : Lane} (hj : j < n) (hlane : s.lanes[j]? = some l)

include hj hlane

theorem pass_of_run (hrun : l.phase = .run) : (pass n s).lanes[j]? = some (begunLane (pass j s) l) := by
  have hl := (pass_lane_of_le s (le_refl j)).trans hlane
  rw [pass_lane_of_lt s hj, laneStep_of_run hl hrun]
  exact setLane_lane_self hl _

theorem pass_of_miss (hpend : l.phase = .pend) (hmiss : s.hitAt l.k.toNat = false) :
    (pass n s).lanes[j]? = some (missedLane (pass j s) l) := by
  have hl := (pass_lane_of_le s (le_refl j)).trans hlane
  rw [pass_lane_of_lt s hj, laneStep_of_miss hl hpend ((hitAt_congr (pass_sameOperands j s) _).trans hmiss)]
  exact setLane_lane_self hl _

theorem pass_of_hit (hpend : l.phase = .pend) (hhit : s.hitAt l.k.toNat = true) :
    (pass n s).lanes[j]? = some (hitLane (pass j s) l) := by
  have hl := (pass_lane_of_le s (le_refl j)).trans hlane
  rw [pass_lane_of_lt s hj, laneStep_of_hit hl hpend ((hitAt_congr (pass_sameOperands j s) _).trans hhit), publish_eq]
  exact setLane_lane_self hl _

theorem pass_of_stopped (hstopped : l.active = false) : (pass n s).lanes[j]? = some l := by
  have hl := (pass_lane_of_le s (le_refl j)).trans hlane
  rw [pass_lane_of_lt s hj, laneStep_of_stopped fun m hm => by cases hl.symm.trans hm; exact hstopped]
  exact hl

end

/-- A pass in which no trial hits publishes nothing (R182). -/
theorem pass_keeps_valid {s : State} {n : Nat}
    (hmiss : ∀ j l, j < n → s.lanes[j]? = some l → l.phase = .pend → s.hitAt l.k.toNat = false) :
    (pass n s).status.resultValid = s.status.resultValid := by
  induction n with
  | zero => rfl
  | succ n ih =>
    rw [pass_succ, ← ih fun j l hj => hmiss j l (by omega)]
    refine laneOp_keeps_valid (laneOp_laneStep _ n) fun l hlane hpend => ?_
    rw [pass_lane_of_le s (le_refl n)] at hlane
    rw [hitAt_congr (pass_sameOperands n s)]
    exact hmiss n l (by omega) hlane hpend

/-- A result that a pass has come to stays through its rest (R183). -/
theorem pass_keeps_result {s : State} {m n : Nat} (hmn : m ≤ n) (hvalid : (pass m s).status.resultValid = true) :
    (pass n s).status.resultValid = true ∧ (pass n s).resultNonce = (pass m s).resultNonce := by
  induction n, hmn using Nat.le_induction with
  | base => exact ⟨hvalid, rfl⟩
  | succ n hn ih =>
    obtain ⟨hv, hresult⟩ := ih
    obtain ⟨hv', hresult'⟩ := laneOp_keeps_result (laneOp_laneStep _ n) hv
    rw [pass_succ]
    exact ⟨hv', hresult'.trans hresult⟩

/-- With a result and no trial begun, one pass stops every lane that takes part (R181, R184). -/
theorem pass_stops {s : State} {c : Nat} (hvalid : s.status.resultValid = true)
    (hpend : ∀ j l, s.lanes[j]? = some l → j < c → l.phase ≠ .pend)
    (hspare : ∀ j l, s.lanes[j]? = some l → c ≤ j → l.active = false) :
    ∀ l ∈ (pass c s).lanes, l.active = false := by
  intro l' hmem
  obtain ⟨j, hl'⟩ := List.mem_iff_getElem?.mp hmem
  cases hlane : s.lanes[j]? with
  | none =>
    obtain ⟨hlength, -⟩ := List.getElem?_eq_some_iff.mp hl'
    rw [pass_length, ← not_le, ← List.getElem?_eq_none_iff] at hlength
    exact absurd hlane hlength
  | some l =>
    by_cases hj : j < c
    · by_cases hrun : l.phase = .run
      · rw [pass_of_run hj hlane hrun] at hl'
        obtain ⟨hv, -⟩ := pass_keeps_result (n := j) (Nat.zero_le j) hvalid
        cases hl'
        obtain ⟨-, hp⟩ | ⟨-, -, hp⟩ | ⟨-, hinvalid, -⟩ := beginPhase_cases (pass j s).status.resultValid l.k
        · simp [begunLane, Lane.active, hp]
        · simp [begunLane, Lane.active, hp]
        · simp [hv] at hinvalid
      · have hstopped := active_eq_false.mpr ⟨hrun, hpend j l hlane hj⟩
        rw [pass_of_stopped hj hlane hstopped] at hl'
        cases hl'
        exact hstopped
    · rw [pass_lane_of_le s (by omega), hlane] at hl'
      cases hl'
      exact hspare j l' hlane (by omega)

end Sys2Proof.Proofs
end

section
/-! The interleavings of the whole search (spec/43_search.md R188, R195): a lane on its own, and the lockstep rounds. -/

namespace Sys2Proof.Proofs

open Sys2Proof.Machine

/-! ### A search with its result published -/

/-- The nonce of offset `k` of the search launched in `t` is published and no lane of it has a trial begun (R183). -/
structure Reported (t s : State) (k : Nat) : Prop where
  valid : s.status.resultValid = true
  nonce : s.resultNonce = t.startNonce + BitVec.ofNat 32 k
  not_pend : ∀ j l, s.lanes[j]? = some l → j < t.laneCount → l.phase ≠ .pend
  spare : ∀ j l, s.lanes[j]? = some l → t.laneCount ≤ j → l.active = false

/-- One pass over its lanes and the controller's turn end such a search FOUND (R184, R186). -/
theorem run_reported {t : State} {is : List Nat} {k : Nat} (hpending : t.pending = none) (hs : t.searching = true)
    (hreported : Reported t (laneTurns is t) k) :
    ∃ u, Host.Core.run Sys2Proof.core ((is ++ List.range t.laneCount).map Turn.lane ++ [Turn.controller]).length
        { t with turns := (is ++ List.range t.laneCount).map .lane ++ [.controller] } = .next u ∧
      u.status.state = .found ∧ u.resultNonce = t.startNonce + BitVec.ofNat 32 k := by
  have hpass : laneTurns (is ++ List.range t.laneCount) t = pass t.laneCount (laneTurns is t) :=
    laneTurns_append is (List.range t.laneCount) t
  have hstopped := pass_stops hreported.valid hreported.not_pend hreported.spare
  obtain ⟨hvalid, hnonce⟩ := laneTurns_keeps_result (List.range t.laneCount) hreported.valid
  obtain ⟨u, hrun, hfound, hresult⟩ := run_lanes_then_finish (is := is ++ List.range t.laneCount) hpending hs
    (by rw [hpass]; exact hvalid) (by rw [hpass]; exact hstopped)
  refine ⟨u, hrun, hfound, hresult.trans ?_⟩
  rw [hpass]
  exact hnonce.trans hreported.nonce

/-- The turns of `n` equal rounds. -/
theorem laneTurns_replicate (is : List Nat) (n : Nat) (s : State) :
    laneTurns (List.replicate n is).flatten s = (laneTurns is)^[n] s := by
  induction n generalizing s with
  | zero => rfl
  | succ n ih => rw [List.replicate_succ, List.flatten_cons, laneTurns_append, ih, Function.iterate_succ_apply]

/-- A property that each of `n` rounds hands on to the next. -/
theorem iterate_rounds {f : State → State} {P : Nat → State → Prop} {s : State} {n : Nat} (h : P 0 s)
    (hround : ∀ m, m < n → ∀ u, P m u → P (m + 1) (f u)) : P n (f^[n] s) := by
  induction n with
  | zero => exact h
  | succ n ih =>
    rw [Function.iterate_succ_apply']
    exact hround n (by omega) _ (ih fun m hm => hround m (by omega))

/-- Without a result, a lane in RUN below `2^32` begins a trial (R181). -/
theorem begunLane_pend {s : State} {l : Lane} (hinvalid : s.status.resultValid = false) (hk : l.k.toNat < 2 ^ 32) :
    (begunLane s l).phase = .pend := by
  obtain ⟨hge, -⟩ | ⟨-, hvalid, -⟩ | ⟨-, -, hp⟩ := beginPhase_cases s.status.resultValid l.k
  · omega
  · simp [hinvalid] at hvalid
  · exact hp

/-- A lane in RUN at `2^32` or above has used up its share (R181). -/
theorem begunLane_exh {s : State} {l : Lane} (hk : 2 ^ 32 ≤ l.k.toNat) : (begunLane s l).phase = .exh := by
  obtain ⟨-, hp⟩ | ⟨hlt, -⟩ | ⟨hlt, -⟩ := beginPhase_cases s.status.resultValid l.k
  · exact hp
  · omega
  · omega

/-! ### One lane on its own -/

/-- In the search launched in `t`, lane `i` is about to begin its trial number `m`, counted from 0, and no other lane
has moved (R188). -/
structure SoloAt (t : State) (i m : Nat) (s : State) : Prop where
  operands : SameOperands t s
  invalid : s.status.resultValid = false
  running : ∃ l, s.lanes[i]? = some l ∧ l.phase = .run ∧ l.k.toNat = i + m * t.laneCount
  others : ∀ j l, j ≠ i → s.lanes[j]? = some l → j < t.laneCount → l.phase ≠ .pend
  spare : ∀ j l, s.lanes[j]? = some l → t.laneCount ≤ j → l.active = false

/-- The begin step of the lane on its own. -/
theorem soloAt_begins {t s : State} {i m : Nat} (h : SoloAt t i m s) (hk : i + m * t.laneCount < 2 ^ 32) :
    ∃ l, (laneStep i s).lanes[i]? = some l ∧ l.phase = .pend ∧ l.k.toNat = i + m * t.laneCount ∧
      (laneStep i s).status.resultValid = false := by
  obtain ⟨l, hlane, hrun, hoffset⟩ := h.running
  rw [laneStep_of_run hlane hrun]
  exact ⟨_, setLane_lane_self hlane _, begunLane_pend h.invalid (by omega), hoffset, h.invalid⟩

/-- The other lanes stay where they are. -/
theorem soloAt_others (i : Nat) (s : State) {j : Nat} (hj : j ≠ i) :
    (laneStep i (laneStep i s)).lanes[j]? = s.lanes[j]? := by
  obtain ⟨-, hother⟩ := laneOp_other (laneOp_laneStep s i)
  obtain ⟨-, hother'⟩ := laneOp_other (laneOp_laneStep (laneStep i s) i)
  rw [hother' j hj, hother j hj]

theorem laneStep_twice_sameOperands (i : Nat) (s : State) : SameOperands s (laneStep i (laneStep i s)) :=
  sameOperands_trans (laneStep_sameOperands i s) (laneStep_sameOperands i _)

/-- Two turns of the lane make a trial that misses (R181, R182). -/
theorem soloAt_misses {t s : State} {i m : Nat} (hi : i < t.laneCount) (h : SoloAt t i m s)
    (hk : i + m * t.laneCount < 2 ^ 32) (hmiss : t.hitAt (i + m * t.laneCount) = false) :
    SoloAt t i (m + 1) (laneTurns [i, i] s) := by
  obtain ⟨l, hlane, hpend, hoffset, hinvalid⟩ := soloAt_begins h hk
  have hops : SameOperands t (laneStep i s) := sameOperands_trans h.operands (laneStep_sameOperands i s)
  have hmiss' : (laneStep i s).hitAt l.k.toNat = false := by rw [hitAt_congr hops, hoffset, hmiss]
  have hstep := laneStep_of_miss hlane hpend hmiss'
  exact {
    operands := sameOperands_trans h.operands (laneStep_twice_sameOperands i s)
    invalid := (congrArg (fun u : State => u.status.resultValid) hstep).trans hinvalid
    running := by
      refine ⟨missedLane (laneStep i s) l, ?_, rfl, ?_⟩
      · exact (congrArg (fun u : State => u.lanes[i]?) hstep).trans (setLane_lane_self hlane _)
      · rw [toNat_missedLane_k_of_lt _ (by omega), laneCount_congr hops, hoffset]
        ring
    others := fun j x hj hx => h.others j x hj ((soloAt_others i s hj).symm.trans hx)
    spare := fun j x hx hj => h.spare j x ((soloAt_others i s (by omega)).symm.trans hx) hj }

/-- Two turns of the lane make a trial that hits, and publish it (R182, R183). -/
theorem soloAt_hits {t s : State} {i m : Nat} (hi : i < t.laneCount) (h : SoloAt t i m s)
    (hk : i + m * t.laneCount < 2 ^ 32) (hhit : t.hitAt (i + m * t.laneCount) = true) :
    Reported t (laneTurns [i, i] s) (i + m * t.laneCount) := by
  obtain ⟨l, hlane, hpend, hoffset, hinvalid⟩ := soloAt_begins h hk
  have hops : SameOperands t (laneStep i s) := sameOperands_trans h.operands (laneStep_sameOperands i s)
  have hhit' : (laneStep i s).hitAt l.k.toNat = true := by rw [hitAt_congr hops, hoffset, hhit]
  have hstep := laneStep_of_hit hlane hpend hhit'
  rw [publish_eq] at hstep
  exact {
    valid := congrArg (fun u : State => u.status.resultValid) hstep
    nonce := by
      refine (congrArg State.resultNonce hstep).trans ?_
      show (if _ then _ else _) = _
      rw [if_neg (by simp [hinvalid]), trialNonce_eq, hoffset, hops.start_eq]
    not_pend := fun j x hx hj => by
      by_cases hji : j = i
      · subst hji
        cases (setLane_lane_self hlane _).symm.trans ((congrArg (fun u : State => u.lanes[j]?) hstep).symm.trans hx)
        nofun
      · exact h.others j x hji ((soloAt_others i s hji).symm.trans hx) hj
    spare := fun j x hx hj => h.spare j x ((soloAt_others i s (by omega)).symm.trans hx) hj }

/-! ### The state after a launch -/

/-- After a launch lane `i < c` is in RUN at offset `i` (R178). -/
theorem launched_running (job : Vector Word 13) {s : State} (hle : s.concurrency.toNat ≤ s.numWorkers) {i : Nat}
    (hi : i < s.concurrency.toNat) :
    ∃ l, (launchedWith job s).lanes[i]? = some l ∧ l.phase = .run ∧ l.k.toNat = i := by
  obtain ⟨l, hlane⟩ : ∃ l, s.lanes[i]? = some l := ⟨_, List.getElem?_eq_getElem (Nat.lt_of_lt_of_le hi hle)⟩
  refine ⟨launchLane s.concurrency.toNat i l, ?_, ?_⟩
  · rw [launchedWith, List.getElem?_mapIdx, hlane]
    rfl
  · rw [launchLane_of_lt hi]
    exact ⟨rfl, toNat_ofNat_of_lt_concurrency hi⟩

/-- After a launch the other lanes are IDLE (R178, R179). -/
theorem launched_spare (job : Vector Word 13) {s : State} {i : Nat} {l : Lane}
    (hlane : (launchedWith job s).lanes[i]? = some l) (hi : s.concurrency.toNat ≤ i) : l.active = false := by
  obtain ⟨l₀, -, rfl⟩ := getElem?_launchedWith hlane
  rw [launchLane_of_ge hi]
  rfl

/-- A launch leaves every lane that takes part as a lane on its own starts from. -/
theorem launched_soloAt (job : Vector Word 13) {s : State} (hle : s.concurrency.toNat ≤ s.numWorkers) {i : Nat}
    (hi : i < s.concurrency.toNat) : SoloAt (launchedWith job s) i 0 (launchedWith job s) where
  operands := ⟨rfl, rfl, rfl⟩
  invalid := rfl
  running := by simpa using launched_running job hle hi
  others j l _ hlane hj := by
    obtain ⟨l', hlane', hrun, -⟩ := launched_running job hle hj
    cases hlane'.symm.trans hlane
    simp [hrun]
  spare _ _ hlane hj := launched_spare job hlane hj

/-- A trial before number `k / c` of lane `k % c` is at an earlier offset of the share of `k` (R171). -/
theorem share_offset_lt {c k m : Nat} (hc : 1 ≤ c) (hm : m < k / c) : k % c + m * c < k := by
  have hk := Nat.mod_add_div' k c
  have hmul := Nat.mul_lt_mul_of_pos_right hm hc
  omega

/-- Settles O54: the lane of the hit runs on its own up to it, and the others stop at their begin steps. -/
theorem everyFirstHitCanBeReported : Obligations.EveryFirstHitCanBeReported := by
  intro s t k _ _ hpos hle hdomain hexec hfirst
  obtain ⟨job, hlaunch, -⟩ := exec_search_launches hpos hle hdomain
  cases hlaunch.symm.trans hexec
  obtain ⟨hk, hhit, hmiss⟩ := hfirst
  have hi : k % s.concurrency.toNat < (launchedWith job s).laneCount := Nat.mod_lt _ hpos
  have hoffset : k % s.concurrency.toNat + k / s.concurrency.toNat * (launchedWith job s).laneCount = k :=
    Nat.mod_add_div' k s.concurrency.toNat
  have hsolo := iterate_rounds (f := laneTurns [k % s.concurrency.toNat, k % s.concurrency.toNat])
    (launched_soloAt job hle hi) fun m (hm : m < k / s.concurrency.toNat) u hu => by
      have hlt : k % s.concurrency.toNat + m * (launchedWith job s).laneCount < k := share_offset_lt hpos hm
      refine soloAt_misses hi hu (by omega) (hmiss _ hlt ?_)
      exact (Nat.add_mul_mod_self_right _ _ _).trans (Nat.mod_mod _ _)
  have hreported := soloAt_hits hi hsolo (by omega) (by rw [hoffset]; exact hhit)
  rw [hoffset, ← Function.iterate_succ_apply' (laneTurns _), ← laneTurns_replicate] at hreported
  obtain ⟨u, hrun, hfound, hnonce⟩ := run_reported rfl rfl hreported
  exact ⟨_, u, hrun, hfound, hnonce⟩

/-! ### Lockstep rounds -/

/-- In the search launched in `t`, every lane that takes part is about to begin its trial number `r`, counted from 0
(R195). -/
structure RoundStarts (t : State) (r : Nat) (s : State) : Prop where
  operands : SameOperands t s
  invalid : s.status.resultValid = false
  running : ∀ i, i < t.laneCount → ∃ l, s.lanes[i]? = some l ∧ l.phase = .run ∧ l.k.toNat = i + r * t.laneCount
  spare : ∀ i l, s.lanes[i]? = some l → t.laneCount ≤ i → l.active = false

/-- In the search launched in `t`, every lane that takes part has begun its trial number `r`, or its share is used up
(R195). -/
structure RoundBegun (t : State) (r : Nat) (s : State) : Prop where
  operands : SameOperands t s
  invalid : s.status.resultValid = false
  begun : ∀ i, i < t.laneCount → ∃ l, s.lanes[i]? = some l ∧ l.k.toNat = i + r * t.laneCount ∧
    (i + r * t.laneCount < 2 ^ 32 → l.phase = .pend) ∧ (2 ^ 32 ≤ i + r * t.laneCount → l.phase = .exh)
  spare : ∀ i l, s.lanes[i]? = some l → t.laneCount ≤ i → l.active = false

/-- The first pass of a round (R181, R195). -/
theorem roundStarts_begins {t s : State} {r : Nat} (h : RoundStarts t r s) : RoundBegun t r (pass t.laneCount s) := by
  have no_trial : ∀ n, n ≤ t.laneCount → (pass n s).status.resultValid = false := fun n hn =>
    (pass_keeps_valid fun j l hj hlane hpend => by
      obtain ⟨l', hlane', hrun, -⟩ := h.running j (by omega)
      cases hlane'.symm.trans hlane
      simp [hrun] at hpend).trans h.invalid
  exact {
    operands := sameOperands_trans h.operands (pass_sameOperands _ s)
    invalid := no_trial _ le_rfl
    begun := fun i hi => by
      obtain ⟨l, hlane, hrun, hoffset⟩ := h.running i hi
      exact ⟨_, pass_of_run hi hlane hrun, hoffset, fun hlt => begunLane_pend (no_trial i hi.le) (by omega),
        fun hge => begunLane_exh (by omega)⟩
    spare := fun i l hlane hi => h.spare i l ((pass_lane_of_le s hi).symm.trans hlane) hi }

/-- The second pass of a round without a hit (R182, R195). -/
theorem roundBegun_misses {t s : State} {r : Nat} (h : RoundBegun t r s)
    (hmiss : ∀ i, i < t.laneCount → i + r * t.laneCount < 2 ^ 32 ∧ t.hitAt (i + r * t.laneCount) = false) :
    RoundStarts t (r + 1) (pass t.laneCount s) where
  operands := sameOperands_trans h.operands (pass_sameOperands _ s)
  invalid := (pass_keeps_valid fun j l hj hlane hpend => by
    obtain ⟨l', hlane', hoffset, -⟩ := h.begun j hj
    obtain ⟨-, hno⟩ := hmiss j hj
    cases hlane'.symm.trans hlane
    rw [hitAt_congr h.operands, hoffset, hno]).trans h.invalid
  running i hi := by
    obtain ⟨l, hlane, hoffset, hpend, -⟩ := h.begun i hi
    obtain ⟨hlt, hno⟩ := hmiss i hi
    refine ⟨_, pass_of_miss hi hlane (hpend hlt) (by rw [hitAt_congr h.operands, hoffset, hno]), rfl, ?_⟩
    rw [toNat_missedLane_k_of_lt _ (by omega), laneCount_congr (sameOperands_trans h.operands (pass_sameOperands i s)),
      hoffset]
    ring
  spare i l hlane hi := h.spare i l ((pass_lane_of_le s hi).symm.trans hlane) hi

/-- The second pass of the round with the smallest hit: the lanes below it miss, so it is the first to publish (R183,
R195). -/
theorem roundBegun_hits {t s : State} {r i : Nat} (h : RoundBegun t r s) (hi : i < t.laneCount)
    (hk : i + r * t.laneCount < 2 ^ 32) (hhit : t.hitAt (i + r * t.laneCount) = true)
    (hmiss : ∀ k', k' < i + r * t.laneCount → t.hitAt k' = false) :
    Reported t (pass t.laneCount s) (i + r * t.laneCount) := by
  obtain ⟨l, hlane, hoffset, hpend, -⟩ := h.begun i hi
  have hops : SameOperands t (pass i s) := sameOperands_trans h.operands (pass_sameOperands i s)
  have hinvalid : (pass i s).status.resultValid = false := (pass_keeps_valid fun j m hj hm _ => by
    obtain ⟨m', hm', hoffset', -⟩ := h.begun j (by omega)
    cases hm'.symm.trans hm
    rw [hitAt_congr h.operands, hoffset', hmiss _ (by omega)]).trans h.invalid
  have hpublish : pass (i + 1) s =
      (publish (trialNonce (pass i s).startNonce l.k) (pass i s)).setLane i (hitLane (pass i s) l) := by
    rw [pass_succ]
    exact laneStep_of_hit ((pass_lane_of_le s le_rfl).trans hlane) (hpend hk) (by rw [hitAt_congr hops, hoffset, hhit])
  rw [publish_eq] at hpublish
  obtain ⟨hvalid, hnonce⟩ := pass_keeps_result (n := t.laneCount) hi (by rw [hpublish]; rfl)
  exact {
    valid := hvalid
    nonce := by
      rw [hnonce, hpublish]
      show (if _ then _ else _) = _
      rw [if_neg (by simp [hinvalid]), trialNonce_eq, hoffset, hops.start_eq]
    not_pend := fun j x hx hj => by
      obtain ⟨m, hm, -, hp, he⟩ := h.begun j hj
      by_cases hlt : j + r * t.laneCount < 2 ^ 32
      · cases htrial : s.hitAt m.k.toNat with
        | true =>
          cases (pass_of_hit hj hm (hp hlt) htrial).symm.trans hx
          nofun
        | false =>
          cases (pass_of_miss hj hm (hp hlt) htrial).symm.trans hx
          nofun
      · have hexh := he (by omega)
        cases (pass_of_stopped hj hm (by simp [Lane.active, hexh])).symm.trans hx
        simp [hexh]
    spare := fun j x hx hj => h.spare j x ((pass_lane_of_le s hj).symm.trans hx) hj }

/-- The lanes that the lockstep rounds name (R195). -/
theorem lockstepRounds_eq (c n : Nat) :
    lockstepRounds c n = (List.replicate n (List.range c ++ List.range c)).flatten.map .lane := by
  rw [lockstepRounds, lockstepRound, List.map_flatten, List.map_replicate, List.map_append]

/-- The last round, pass by pass. -/
theorem lockstepRounds_add_two (c n : Nat) :
    lockstepRounds c (n + 2) = ((List.replicate (n + 1) (List.range c ++ List.range c)).flatten ++ List.range c ++
      List.range c).map .lane := by
  rw [lockstepRounds_eq, List.replicate_succ', List.flatten_append, List.flatten_singleton, List.append_assoc]

/-- A lockstep round is two passes. -/
theorem laneTurns_round (c : Nat) (s : State) :
    laneTurns (List.range c ++ List.range c) s = pass c (pass c s) := laneTurns_append _ _ s

/-- A further pass leaves the result as it is (R183, R184). -/
theorem reported_pass {t s : State} {k : Nat} (h : Reported t s k) : Reported t (pass t.laneCount s) k := by
  have hstopped := pass_stops h.valid h.not_pend h.spare
  obtain ⟨hvalid, hnonce⟩ := laneTurns_keeps_result (List.range t.laneCount) h.valid
  exact {
    valid := hvalid
    nonce := hnonce.trans h.nonce
    not_pend := fun j l hlane _ => by
      obtain ⟨-, hpend⟩ := active_eq_false.mp (hstopped l (List.mem_of_getElem? hlane))
      exact hpend
    spare := fun j l hlane _ => hstopped l (List.mem_of_getElem? hlane) }

/-- A launch is the start of the first round. -/
theorem launched_roundStarts (job : Vector Word 13) {s : State} (hle : s.concurrency.toNat ≤ s.numWorkers) :
    RoundStarts (launchedWith job s) 0 (launchedWith job s) where
  operands := ⟨rfl, rfl, rfl⟩
  invalid := rfl
  running _ hi := by simpa using launched_running job hle hi
  spare _ _ hlane hi := launched_spare job hlane hi

/-- A trial of a round before number `k / c` is at an offset below `k` (R195). -/
theorem round_offset_lt {c k r i : Nat} (hr : r < k / c) (hi : i < c) : i + r * c < k := by
  have hk := Nat.mod_add_div' k c
  have hmul := Nat.mul_le_mul_right c (Nat.succ_le_of_lt hr)
  rw [Nat.succ_mul] at hmul
  omega

/-- The state after the round of the smallest hit and one pass more. -/
theorem lockstep_reported {t : State} {k : Nat} (hpos : 1 ≤ t.laneCount) (hstart : RoundStarts t 0 t) (hk : k < 2 ^ 32)
    (hhit : t.hitAt k = true) (hmiss : ∀ k', k' < k → t.hitAt k' = false) :
    Reported t (laneTurns ((List.replicate (k / t.laneCount + 1)
      (List.range t.laneCount ++ List.range t.laneCount)).flatten ++ List.range t.laneCount) t) k := by
  have hi : k % t.laneCount < t.laneCount := Nat.mod_lt _ hpos
  have hoffset : k % t.laneCount + k / t.laneCount * t.laneCount = k := Nat.mod_add_div' k t.laneCount
  have hrounds := iterate_rounds (f := laneTurns (List.range t.laneCount ++ List.range t.laneCount)) hstart
    fun r (hr : r < k / t.laneCount) u hu => by
      rw [laneTurns_round]
      refine roundBegun_misses (roundStarts_begins hu) fun i hi => ?_
      have hlt := round_offset_lt hr hi
      exact ⟨by omega, hmiss _ hlt⟩
  have hround := roundBegun_hits (roundStarts_begins hrounds) hi (by omega) (by rw [hoffset]; exact hhit)
    (by rw [hoffset]; exact hmiss)
  rw [hoffset, ← laneTurns_round, ← Function.iterate_succ_apply' (laneTurns _), ← laneTurns_replicate] at hround
  rw [laneTurns_append]
  exact reported_pass hround

/-- Settles O57: `k / c` rounds without a hit, the round of the hit, and a round in which every lane stops. -/
theorem lockstepSearchReportsTheSmallestHit : Obligations.LockstepSearchReportsTheSmallestHit := by
  intro s t k _ _ hpos hle hdomain hexec hk hhit hmiss
  obtain ⟨job, hlaunch, -⟩ := exec_search_launches hpos hle hdomain
  cases hlaunch.symm.trans hexec
  obtain ⟨u, hrun, hfound, hnonce⟩ :=
    run_reported rfl rfl (lockstep_reported (t := launchedWith job s) hpos (launched_roundStarts job hle) hk hhit hmiss)
  rw [← lockstepRounds_add_two] at hrun
  exact ⟨u, hrun, hfound, hnonce⟩

end Sys2Proof.Proofs
end

section
/-! What an error leaves of the earlier result (spec/60_exceptions.md R214, R215). -/

namespace Sys2Proof.Proofs

open Sys2Proof.Machine

/-- A TEST that ends in ERROR has written `PRED_HIT = 0` (spec/41_header_predicate.md R132). -/
theorem predHit_of_test_error {s t : State} (hexec : exec .test s = .next t) (herror : t.status.state = .error) :
    t.status.predHit = false := by
  obtain ⟨p, job, -, -, htest⟩ | ⟨-, htest⟩ := execTest_cases s <;> cases htest.symm.trans hexec
  · cases herror
  · rfl

/-- Of the outcomes of a command executed while BUSY only a raised error ends in ERROR: a completed command is IDLE and
a launched search still BUSY. -/
theorem exec_ends_in_error {i : Instr} {s t : State} (hbusy : s.status.state = .busy) (hexec : exec i s = .next t)
    (herror : t.status.state = .error) :
    ∃ (code : ErrCode) (job : Vector Word 13) (predHit : Bool), t = { s with
        pending := none, job := job
        status := { s.status with state := .error, err := code, predHit := predHit } } ∧
      (i ≠ .test → predHit = s.status.predHit) := by
  cases execOp_of_exec hexec with
  | completed => cases herror
  | raised _ code job predHit _ htest => exact ⟨code, job, predHit, rfl, htest⟩
  | launched => cases hbusy.symm.trans herror

/-- Only the refusal of an illegal word ends a command write in ERROR: a dropped write is seen while BUSY, and a legal
word makes the block BUSY (spec/30_encoding.md R84). -/
theorem acceptCommand_ends_in_error {s : State} {v : Word} (herror : (acceptCommand v s).status.state = .error) :
    acceptCommand v s = acceptIllegal s := by
  obtain ⟨hbusy, hdropped⟩ | ⟨-, i, -, hlegal⟩ | ⟨-, -, hrefused⟩ := acceptCommand_cases v s
  · rw [hdropped] at herror
    cases (busy_eq_true.mp hbusy).symm.trans herror
  · rw [hlegal] at herror
    cases herror
  · exact hrefused

/-- Settles O21: each error writes `STATUS`, `ctrl.pending` and at most the job window. -/
theorem errorKeepsTheEarlierResult : Obligations.ErrorKeepsTheEarlierResult := by
  refine ⟨fun i s t hbusy hexec herror => ?_, fun s t v hwrite herror => ?_⟩
  · obtain ⟨code, job, predHit, rfl, hkept⟩ := exec_ends_in_error hbusy hexec herror
    refine ⟨rfl, rfl, rfl, rfl, rfl, rfl, rfl, hkept, ?_⟩
    rintro rfl
    exact predHit_of_test_error hexec herror
  · cases (busWrite_offsetOf s .cmd v).symm.trans hwrite
    have hrefused : writeReg s .cmd v = acceptIllegal s := acceptCommand_ends_in_error herror
    rw [hrefused]
    exact ⟨rfl, rfl, rfl, rfl, rfl, rfl, rfl, rfl⟩

end Sys2Proof.Proofs
end

section
/-! Reset and quiescence (spec/70_reset_and_hazards.md R240, R241, R257): a block with nothing to do, and the block after
the reset input. -/

namespace Sys2Proof.Proofs

open Sys2Proof.Machine

/-! ### A block with nothing to do -/

/-- With nothing pending, no search and no lane in RUN or PEND, only the host can have an enabled step
(spec/10_state.md R40, R41, spec/43_search.md R179, R186). -/
theorem turnEnabled_of_idle {s : State} (hpending : s.pending = none) (hsearching : s.searching = false)
    (hstopped : ∀ l ∈ s.lanes, l.active = false) {a : Turn} (hhost : a ≠ .host) : turnEnabled s a = false := by
  cases a with
  | host => exact absurd rfl hhost
  | controller => simp [turnEnabled, State.canFinish, hpending, hsearching]
  | lane i =>
    refine Bool.eq_false_iff.mpr fun henabled => ?_
    obtain ⟨l, hlane, hactive⟩ := turnEnabled_lane_iff.mp henabled
    simp [hstopped l (List.mem_of_getElem? hlane)] at hactive
  | reset => rfl

/-- A host with nothing left in its script has no step (spec/00_scope.md R13). -/
theorem turnEnabled_host_of_silent {s : State} (hscript : s.script = []) : turnEnabled s .host = false := by
  simp [turnEnabled, hscript]

/-- A machine in which no agent has an enabled step, with no turn fixed in advance, stays as it is (R257). -/
theorem step_of_quiescent {s : State} (hturns : s.turns = []) (hquiet : ∀ a, turnEnabled s a = false) :
    step s = .next s := by
  cases hfree : s.freeTurn with
  | none => simp only [step, nextStep, hturns, hfree]
  | some a => exact absurd (freeTurn_enabled hfree) (by simp [hquiet a])

/-- Settles O8: outside BUSY nothing is pending and no search runs, and then every lane is stopped. -/
theorem quiescentMachineStays : Obligations.QuiescentMachineStays := by
  intro s h hstate hscript hturns
  obtain ⟨hpending, hsearching⟩ := idle_of_not_busy h hstate
  have hquiet : ∀ a, turnEnabled s a = false := fun a => by
    by_cases hhost : a = .host
    · rw [hhost]
      exact turnEnabled_host_of_silent hscript
    · exact turnEnabled_of_idle hpending hsearching (h.lanes_stopped hsearching) hhost
  exact ⟨step_of_quiescent hturns hquiet, hquiet⟩

/-! ### The reset input -/

/-- The reset input leaves in the registers what a reset of a block with the same parameters does: no register shows the
model's own fields. -/
theorem readReg_resetInput (s : State) (r : RegName) :
    readReg (resetInput s) r = readReg (State.resetOf { base := s.base, numWorkers := s.numWorkers }) r := by
  cases r <;> rfl

/-- `NUM_WORKERS` reads the number of lanes, which the reset input keeps (R241). -/
theorem readReg_numWorkers_resetInput (s : State) : readReg (resetInput s) .numWorkers = readReg s .numWorkers := by
  simp [readReg, numWorkersWord, State.numWorkers]

/-- Every lane is in its reset value after the reset input (spec/10_state.md R48). -/
theorem lane_of_resetInput {s : State} {l : Lane} (hl : l ∈ (resetInput s).lanes) : l = Lane.reset :=
  List.eq_of_mem_replicate hl

/-- After the reset input only the host can have an enabled step (R241). -/
theorem turnEnabled_resetInput (s : State) {a : Turn} (hhost : a ≠ .host) : turnEnabled (resetInput s) a = false :=
  turnEnabled_of_idle (resetInput_pending s) (resetInput_searching s)
    (fun l hl => by rw [lane_of_resetInput hl]; rfl) hhost

/-- Settles O43: the turn is the reset input, which leaves the block as `State.resetOf` with its own parameters. -/
theorem resetInputClearsTheBlock : Obligations.ResetInputClearsTheBlock := by
  intro s rest hturns
  refine ⟨resetInput { s with turns := rest }, step_of_turns_cons hturns, fun r hr => ?_,
    readReg_numWorkers_resetInput _, rfl, rfl, rfl, List.length_replicate, fun l hl => ?_,
    fun a hhost => turnEnabled_resetInput _ hhost⟩
  · exact (readReg_resetInput _ r).trans (readReg_resetOf _ r hr)
  · rw [lane_of_resetInput hl]
    exact ⟨rfl, rfl, rfl⟩

end Sys2Proof.Proofs
end
